-- ==== Sys2Proof/Word.lean ====
section
/-! DEFINITION. The words of the block: bytes, the header word and the request (spec/00_scope.md R7, R8; 30_encoding.md R70). -/

namespace Sys2Proof

/-- One byte of a frame header. -/
abbrev Byte := BitVec 8

/-- The 32-bit header word `W`, or the operand word of a resolver operation: what `req_data` carries (R21). -/
abbrev HeaderWord := BitVec 32

/-- The 34-bit request `R = req_op ++ req_data` (R70). -/
abbrev Request := BitVec 34

end Sys2Proof
end

