-- ==== Sys2Proof/Config.lean ====
section
/-! DEFINITION. The fixed implementation parameters of spec/00_scope.md R6, and the one free value the spec leaves: the
response registers before the first reset edge (70_reset_and_hazards.md R232). The widths of R6 are the widths of the
types; the two tables are model arguments and so data of State (Machine/State.lean, Machine/Tables.lean). -/

namespace Sys2Proof

/-- `HDR_BYTES`: a header is exactly 4 bytes (R6, R235). -/
def Config.hdrBytes : Nat := 4

/-- The sync pattern: `SYNC_W` = 11 bits, all ones (R6, R77). -/
def Config.syncPattern : BitVec 11 := 0b111_1111_1111#11

/-- `BR_UNIT`: bits per second per bitrate table unit (R6, R130). -/
def Config.brUnit : Int := 8000

/-- `RSP_LATENCY`: clock edges from a request to its response (R6, R240). -/
def Config.rspLatency : Nat := 1

/-- FREE VALUE (log 7): the 74 bits the response register set (R23) holds while no reset edge has happened, by the number of
edges since power-on. R232 gives them no value, so nothing here does either. -/
opaque Config.powerOnBits : Nat → BitVec 74

end Sys2Proof
end

