-- ==== Sys2Proof/Syntax.lean ====
section
/-! DEFINITION. What the host presents: the twelve header fields (spec/30_encoding.md R74), the four operations of the
opcode table (R71), the inputs of one clock cycle (10_state.md R21), the lines of the cycle notation (R82, R83), and the
names of the enumerated codes (R76). -/

namespace Sys2Proof

/-- The twelve fields of the header word after the sync prefix, in declaration order (R74). Every field is the raw
unsigned code of its width (R9, R75). -/
structure Header where
  version      : BitVec 2
  layer        : BitVec 2
  protection   : BitVec 1
  brIndex      : BitVec 4
  srIndex      : BitVec 2
  padding      : BitVec 1
  privateFlag  : BitVec 1
  mode         : BitVec 2
  modeExt      : BitVec 2
  copyright    : BitVec 1
  original     : BitVec 1
  emphasis     : BitVec 2
deriving DecidableEq, Repr

/-- One request, its operands pulled out of `req_data`: one constructor per row of the opcode table (R71). Bits an operation
ignores (R73, R190) are no operand (log 9). -/
inductive Instr where
  /-- DECODE: the eleven bits that must be the sync pattern, and the twelve header fields (R72, R74; log 10). -/
  | decode (sync : BitVec 11) (header : Header)
  /-- RESOLVE.BR: version, layer and bitrate index (R73). -/
  | resolveBr (version : BitVec 2) (layer : BitVec 2) (brIndex : BitVec 4)
  /-- RESOLVE.SR: version and sample-rate index (R73). -/
  | resolveSr (version : BitVec 2) (srIndex : BitVec 2)
  /-- OP3, the reserved operation code 0b11: `req_data` is ignored (R190). -/
  | op3
deriving DecidableEq, Repr

/-- The values of the input ports at one rising edge of `clk`, each a bit vector of its port's width (R21). -/
structure Cycle where
  rst      : BitVec 1
  reqValid : BitVec 1
  reqOp    : BitVec 2
  reqData  : HeaderWord
deriving DecidableEq, Repr

/-- One line of the cycle notation: the six lines of R82 and the three pseudo-instructions of R83, whose operands are
unsigned numbers of any size until the assembler has checked them. -/
inductive Line where
  | decode (word : HeaderWord)
  | resolveBr (word : HeaderWord)
  | resolveSr (word : HeaderWord)
  | op3 (word : HeaderWord)
  | idle
  | reset
  /-- `RESOLVE.BR v, l, i` -/
  | resolveBrFields (v l i : Nat)
  /-- `RESOLVE.SR v, i` -/
  | resolveSrFields (v i : Nat)
  /-- `DECODE.F v, l, p, bri, sri, pad, prv, m, x, c, o, e` -/
  | decodeFields (v l p bri sri pad prv m x c o e : Nat)
deriving DecidableEq, Repr

/-- AudioVersion names (R76). -/
inductive AudioVersion where
  | mpeg25 | reserved | mpeg2 | mpeg1
deriving DecidableEq, Repr

/-- Layer names (R76). -/
inductive Layer where
  | reserved | layer3 | layer2 | layer1
deriving DecidableEq, Repr

/-- ChannelMode names (R76; log 16). -/
inductive ChannelMode where
  | stereo | joint | dual | single
deriving DecidableEq, Repr

/-- Emphasis names (R76, 90_conflicts.md C2; log 16). -/
inductive Emphasis where
  | none | ms50_15 | reserved | ccitJ17
deriving DecidableEq, Repr

end Sys2Proof
end

