-- ==== Sys2Proof/WellFormed.lean ====
section
/-! DEFINITION. Which lines the assembler accepts (spec/30_encoding.md R83). An `Instr` and a `Cycle` need no check: their
operands have the widths of their fields by type, each of the four operation codes selects a row (R71), and every value of
every field is representable (R79). The check on the table arguments (R135, R139) is in Machine/Tables.lean. -/

namespace Sys2Proof

/-- An unsigned number that fits a field of `width` bits (R83). -/
def fits (width n : Nat) : Bool := decide (n < 2 ^ width)

/-- R83: "Each operand is an unsigned number that fits the width of its field in rule R74". -/
def Line.wf : Line → Bool
  | .decode _ => true
  | .resolveBr _ => true
  | .resolveSr _ => true
  | .op3 _ => true
  | .idle => true
  | .reset => true
  | .resolveBrFields v l i => fits 2 v && fits 2 l && fits 4 i
  | .resolveSrFields v i => fits 2 v && fits 2 i
  | .decodeFields v l p bri sri pad prv m x c o e =>
      fits 2 v && fits 2 l && fits 1 p && fits 4 bri && fits 2 sri && fits 1 pad && fits 1 prv
        && fits 2 m && fits 2 x && fits 1 c && fits 1 o && fits 2 e

end Sys2Proof
end

