-- ==== Sys2Proof/Decode.lean ====
section
/-! DEFINITION. From bits to requests and back: the decoder and the encoder of spec/30_encoding.md R70 to R77, the packing
of the header bytes (00_scope.md R7, R54), the opcode table's rows, and the assembler of the cycle notation (R82, R83). -/

namespace Sys2Proof

/-! ### The decoder -/

/-- The twelve fields of a header word, each the plain slice at its position (R74, R75). -/
def Header.ofWord (w : HeaderWord) : Header where
  version     := w.extractLsb' 19 2
  layer       := w.extractLsb' 17 2
  protection  := w.extractLsb' 16 1
  brIndex     := w.extractLsb' 12 4
  srIndex     := w.extractLsb' 10 2
  padding     := w.extractLsb' 9 1
  privateFlag := w.extractLsb' 8 1
  mode        := w.extractLsb' 6 2
  modeExt     := w.extractLsb' 4 2
  copyright   := w.extractLsb' 3 1
  original    := w.extractLsb' 2 1
  emphasis    := w.extractLsb' 0 2

/-- Decoding of the request port: total, each value of `req_op` selects exactly one operation (R71, R72, R73). -/
def decodePort (op : BitVec 2) (data : HeaderWord) : Instr :=
  if op = 0b00#2 then .decode (data.extractLsb' 21 11) (Header.ofWord data)
  else if op = 0b01#2 then
    .resolveBr (data.extractLsb' 19 2) (data.extractLsb' 17 2) (data.extractLsb' 12 4)
  else if op = 0b10#2 then .resolveSr (data.extractLsb' 19 2) (data.extractLsb' 10 2)
  else .op3

/-- Decoding of the 34-bit request: `R[33:32] = req_op`, `R[31:0] = req_data` (R70). -/
def decodeRequest (r : Request) : Instr :=
  decodePort (r.extractLsb' 32 2) (r.extractLsb' 0 32)

/-- What cannot be presented on the request port, by name. -/
inductive DecodeError where
  /-- A number with bits above the 34 of a request (R70: every request has this one length; log 11). -/
  | requestTooWide
  /-- A header of a length other than 4 bytes (R235). -/
  | headerLength
deriving DecidableEq, Repr

/-- The decoder on any number: a request, or rejected by name. -/
def decodeNumber (w : Nat) : Except DecodeError Instr :=
  if w < 2 ^ 34 then .ok (decodeRequest (BitVec.ofNat 34 w)) else .error .requestTooWide

/-- The instruction the decoder reads from an opcode-table row's bits; bits from `nbits` up are 0. -/
def decodeTableWord (nbits w : Nat) : Option Instr :=
  (decodeNumber (w % 2 ^ nbits)).toOption

/-- `W = b0 ++ b1 ++ b2 ++ b3` (R7, R54). Exactly `HDR_BYTES` bytes; any other length is refused (R235). -/
def packHeader : List Byte → Except DecodeError HeaderWord
  | [b0, b1, b2, b3] => .ok (b0 ++ b1 ++ b2 ++ b3)
  | _ => .error .headerLength

/-- The request that presents the given header bytes under an operation code; total on any bytes. -/
def decodeBytes (op : BitVec 2) (bytes : List Byte) : Except DecodeError Instr :=
  (packHeader bytes).map (decodePort op)

/-! ### The encoder -/

/-- The header word of a sync prefix and twelve fields, most significant field first (R74). -/
def Header.toWord (sync : BitVec 11) (h : Header) : HeaderWord :=
  sync ++ h.version ++ h.layer ++ h.protection ++ h.brIndex ++ h.srIndex ++ h.padding ++ h.privateFlag
    ++ h.mode ++ h.modeExt ++ h.copyright ++ h.original ++ h.emphasis

/-- The operation code of an instruction (R71). -/
def Instr.op : Instr → BitVec 2
  | .decode _ _ => 0b00#2
  | .resolveBr _ _ _ => 0b01#2
  | .resolveSr _ _ => 0b10#2
  | .op3 => 0b11#2

/-- The data word of an instruction: operands at their header positions (R72, R73), ignored bits 0 (log 9). -/
def Instr.data : Instr → HeaderWord
  | .decode sync h => h.toWord sync
  | .resolveBr v l i => 0#11 ++ v ++ l ++ 0#1 ++ i ++ 0#12
  | .resolveSr v i => 0#11 ++ v ++ 0#7 ++ i ++ 0#10
  | .op3 => 0#32

/-- The 34-bit request of an instruction (R70). -/
def encode (i : Instr) : Request := i.op ++ i.data

/-! ### The opcode table -/

/-- The mnemonic of an instruction's row (R71). -/
def Instr.mnemonic : Instr → String
  | .decode _ _ => "DECODE"
  | .resolveBr _ _ _ => "RESOLVE.BR"
  | .resolveSr _ _ => "RESOLVE.SR"
  | .op3 => "OP3"

/-- A row of spec/opcode_table.json: a request belongs to it when `R & mask = pattern`. `operands` marks the bits that are
an operand of the row; the table's other data bits are ignored. -/
structure OpcodeRow where
  mnemonic : String
  mask     : Request
  pattern  : Request
  operands : Request
deriving DecidableEq, Repr

/-- Row membership. -/
def OpcodeRow.selects (row : OpcodeRow) (r : Request) : Bool := r &&& row.mask == row.pattern

/-- The four rows of spec/opcode_table.json, in its order. -/
def opcodeRows : List OpcodeRow :=
  [⟨"DECODE",     0x300000000#34, 0x000000000#34, 0x0FFFFFFFF#34⟩,
   ⟨"RESOLVE.BR", 0x300000000#34, 0x100000000#34, 0x0001EF000#34⟩,
   ⟨"RESOLVE.SR", 0x300000000#34, 0x200000000#34, 0x000180C00#34⟩,
   ⟨"OP3",        0x300000000#34, 0x300000000#34, 0x000000000#34⟩]

/-! ### The assembler of the cycle notation -/

/-- Why a line is refused. -/
inductive AsmError where
  /-- The text is none of the lines of R82 and R83 (log 13). -/
  | notALine
  /-- R83: "a wider operand is refused by the assembler". -/
  | operandTooWide
deriving DecidableEq, Repr

/-- A cycle that presents a request (R82). -/
def Cycle.request (op : BitVec 2) (data : HeaderWord) : Cycle := ⟨0, 1, op, data⟩

/-- `IDLE`: `rst=0, req_valid=0` (R82). The ignored ports are driven 0 (log 12). -/
def Cycle.idle : Cycle := ⟨0, 0, 0, 0⟩

/-- `RESET`: `rst=1` (R82). The ignored ports are driven 0 (log 12). -/
def Cycle.reset : Cycle := ⟨1, 0, 0, 0⟩

/-- `req_data` of `RESOLVE.BR v, l, i` (R83). -/
def resolveBrData (v l i : Nat) : Nat := v <<< 19 ||| l <<< 17 ||| i <<< 12

/-- `req_data` of `RESOLVE.SR v, i` (R83). -/
def resolveSrData (v i : Nat) : Nat := v <<< 19 ||| i <<< 10

/-- `req_data` of `DECODE.F` (R83). -/
def decodeData (v l p bri sri pad prv m x c o e : Nat) : Nat :=
  0xFFE00000 ||| v <<< 19 ||| l <<< 17 ||| p <<< 16 ||| bri <<< 12 ||| sri <<< 10 ||| pad <<< 9 ||| prv <<< 8
    ||| m <<< 6 ||| x <<< 4 ||| c <<< 3 ||| o <<< 2 ||| e

/-- The cycle inputs a line that passes the width check stands for (R82, R83). -/
def Line.inputs : Line → Cycle
  | .decode w => Cycle.request 0b00 w
  | .resolveBr w => Cycle.request 0b01 w
  | .resolveSr w => Cycle.request 0b10 w
  | .op3 w => Cycle.request 0b11 w
  | .idle => Cycle.idle
  | .reset => Cycle.reset
  | .resolveBrFields v l i => Cycle.request 0b01 (BitVec.ofNat 32 (resolveBrData v l i))
  | .resolveSrFields v i => Cycle.request 0b10 (BitVec.ofNat 32 (resolveSrData v i))
  | .decodeFields v l p bri sri pad prv m x c o e =>
      Cycle.request 0b00 (BitVec.ofNat 32 (decodeData v l p bri sri pad prv m x c o e))

/-- Assembling one line: a too wide operand is refused (R83). -/
def assemble (line : Line) : Except AsmError Cycle :=
  if line.wf then .ok line.inputs else .error .operandTooWide

/-! The text of a line. R82 gives the mnemonics and `<hex32>`; the separators, the case of the digits and the decimal
operands of the pseudo-instructions follow its examples (log 13). -/

/-- The value of a hexadecimal digit. -/
def hexDigit? (ch : Char) : Option Nat :=
  if '0' ≤ ch ∧ ch ≤ '9' then some (ch.toNat - 48)
  else if 'A' ≤ ch ∧ ch ≤ 'F' then some (ch.toNat - 55)
  else if 'a' ≤ ch ∧ ch ≤ 'f' then some (ch.toNat - 87)
  else none

/-- The value of a decimal digit. -/
def decDigit? (ch : Char) : Option Nat :=
  if '0' ≤ ch ∧ ch ≤ '9' then some (ch.toNat - 48) else none

/-- The number a digit list denotes in a base, most significant digit first. -/
def digitsValue (base : Nat) (digit? : Char → Option Nat) (acc : Nat) : List Char → Option Nat
  | [] => some acc
  | ch :: rest => (digit? ch).bind fun d => digitsValue base digit? (base * acc + d) rest

/-- `<hex32>`: "`0x` followed by eight hexadecimal digits" (R82). -/
def readHex32 : List Char → Option HeaderWord
  | '0' :: 'x' :: ds => if ds.length = 8 then (digitsValue 16 hexDigit? 0 ds).map (BitVec.ofNat 32) else none
  | _ => none

/-- A decimal operand of a pseudo-instruction. -/
def readDecimal : List Char → Option Nat
  | [] => none
  | ds => digitsValue 10 decDigit? 0 ds

/-- The words of a line, split at single spaces. -/
def splitWords (acc : List Char) : List Char → List (List Char)
  | [] => [acc.reverse]
  | ch :: rest => if ch = ' ' then acc.reverse :: splitWords [] rest else splitWords (ch :: acc) rest

/-- Comma-separated decimal operands: every word but the last ends in a comma. -/
def readOperands : List (List Char) → Option (List Nat)
  | [] => none
  | [w] => (readDecimal w).map fun n => [n]
  | w :: rest =>
      if w.getLast? = some ',' then
        (readDecimal w.dropLast).bind fun n => (readOperands rest).map fun ns => n :: ns
      else none

/-- The line a mnemonic with one `<hex32>` stands for (R82). -/
def hexLine? (m : List Char) (w : HeaderWord) : Option Line :=
  if m = "DECODE".toList then some (.decode w)
  else if m = "RESOLVE.BR".toList then some (.resolveBr w)
  else if m = "RESOLVE.SR".toList then some (.resolveSr w)
  else if m = "OP3".toList then some (.op3 w)
  else none

/-- The pseudo-instruction a mnemonic with its operands stands for (R83). -/
def pseudoLine? (m : List Char) : List Nat → Option Line
  | [v, l, i] => if m = "RESOLVE.BR".toList then some (.resolveBrFields v l i) else none
  | [v, i] => if m = "RESOLVE.SR".toList then some (.resolveSrFields v i) else none
  | [v, l, p, bri, sri, pad, prv, mo, x, c, o, e] =>
      if m = "DECODE.F".toList then some (.decodeFields v l p bri sri pad prv mo x c o e) else none
  | _ => none

/-- The line a list of words stands for (R82, R83). -/
def readWords : List (List Char) → Option Line
  | [m] => if m = "IDLE".toList then some .idle else if m = "RESET".toList then some .reset else none
  | m :: operands =>
      match operands with
      | [w] =>
          match readHex32 w with
          | some x => hexLine? m x
          | none => none
      | _ => (readOperands operands).bind (pseudoLine? m)
  | [] => none

/-- Reading the text of one line (R82, R83). -/
def readLine (text : String) : Except AsmError Line :=
  match readWords (splitWords [] text.toList) with
  | some line => .ok line
  | none => .error .notALine

/-- The cycle inputs of one line of text. -/
def assembleText (text : String) : Except AsmError Cycle := (readLine text).bind assemble

end Sys2Proof
end

