-- ==== Sys2Proof/Machine/State.lean ====
section
/-! DEFINITION. The state of the block: the response register set of spec/10_state.md R23, the two ROMs of 20_memory.md R50,
whether a reset edge has happened (70_reset_and_hazards.md R232), and the cycles the host is still to drive; the reasons a step can stop; the machine after reset and at power-on. -/

namespace Sys2Proof.Machine

/-- The payload: every response register except `rsp_valid` (R23, 00_scope.md glossary). Raw codes (D25). -/
structure Payload where
  rspOp       : BitVec 2
  rspStatus   : BitVec 2
  fVersion    : BitVec 2
  fLayer      : BitVec 2
  fProtection : BitVec 1
  fBrIndex    : BitVec 4
  fSrIndex    : BitVec 2
  fPadding    : BitVec 1
  fPrivate    : BitVec 1
  fMode       : BitVec 2
  fModeExt    : BitVec 2
  fCopyright  : BitVec 1
  fOriginal   : BitVec 1
  fEmphasis   : BitVec 2
  brKind      : BitVec 2
  brRaw       : BitVec 8
  brBps       : BitVec 20
  srKind      : BitVec 2
  srHz        : BitVec 16
deriving DecidableEq, Repr

/-- The zero payload: every field 0, so the kind fields are NONE (00_scope.md glossary; R203, R231). -/
def Payload.zero : Payload := ⟨0, 0, 0, 0, 0, 0, 0, 0, 0, 0, 0, 0, 0, 0, 0, 0, 0, 0, 0⟩

/-- The payload in the 74 bits of the response register set: all but the highest, which is `rsp_valid`, in the order of
R23's table. -/
def Payload.ofBits (bits : BitVec 74) : Payload where
  rspOp       := bits.extractLsb' 71 2
  rspStatus   := bits.extractLsb' 69 2
  fVersion    := bits.extractLsb' 67 2
  fLayer      := bits.extractLsb' 65 2
  fProtection := bits.extractLsb' 64 1
  fBrIndex    := bits.extractLsb' 60 4
  fSrIndex    := bits.extractLsb' 58 2
  fPadding    := bits.extractLsb' 57 1
  fPrivate    := bits.extractLsb' 56 1
  fMode       := bits.extractLsb' 54 2
  fModeExt    := bits.extractLsb' 52 2
  fCopyright  := bits.extractLsb' 51 1
  fOriginal   := bits.extractLsb' 50 1
  fEmphasis   := bits.extractLsb' 48 2
  brKind      := bits.extractLsb' 46 2
  brRaw       := bits.extractLsb' 38 8
  brBps       := bits.extractLsb' 18 20
  srKind      := bits.extractLsb' 16 2
  srHz        := bits.extractLsb' 0 16

/-- Whether a reset edge has happened since power-on (R232, R234). -/
inductive Phase where
  /-- No reset edge yet, and this many edges since power-on: every response register is unspecified (R232; log 7). -/
  | beforeReset (edges : Nat)
  /-- At least one reset edge has happened. -/
  | afterReset
deriving DecidableEq, Repr

/-- The state of the block and its host. -/
structure State where
  /-- `rsp_valid` (R23). -/
  rspValid : BitVec 1
  /-- The other response registers (R23). -/
  payload  : Payload
  /-- `BR_ROM` (R50): the cells of `BR_LUT` that differ from the default table of R131, addresses rising (log 4). -/
  brRom    : List Host.Cell
  /-- `SR_ROM` (R50): the 16-bit cells of `SR_LUT` that differ from the default table of R136, addresses rising (log 4). -/
  srRom    : List (Nat × BitVec 16)
  /-- The model's own field: R232's "before the first reset edge", with the count that makes the free values fresh (log 7). -/
  phase    : Phase
  /-- The model's own field: the cycle inputs the host is still to drive, oldest first (R20, R21; log 2). -/
  cycles   : List Cycle
deriving DecidableEq, Repr

/-- Codes the block never produces: "a model that meets it records a `fault`" (93_implementation_defined.md; log 8). -/
inductive Fault where
  /-- `rsp_status = 0b11` in a response (R200). Raised when the host samples it (Machine/Observe.lean); safe. -/
  | statusNeverProduced
  /-- `sr_kind = 0b11` in a response (R29). Raised when the host samples it (Machine/Observe.lean); safe. -/
  | srKindNeverProduced
deriving DecidableEq, Repr

/-- What the model gives no meaning. -/
inductive Refusal where
  /-- An instruction without a meaning in exec's arm; no arm raises it now. Safe. -/
  | notModelled (mnemonic : String)
  /-- The `BR_LUT` argument breaks R132 to R135. Raised by building a machine with it and by every edge of such a machine
  (log 5); safe. -/
  | illegalBrLut
  /-- The `SR_LUT` argument breaks R137 to R139. Raised as `illegalBrLut` is; safe. -/
  | illegalSrLut
  /-- A renderer asked of registers that hold no response with status OK (R170). Raised by `render`; safe. -/
  | renderNoResult
  /-- A renderer asked of a response that does not hold the field, a NONE kind among them (R170, R173, R174; log 14).
  Raised by `render`; safe. -/
  | renderNotHeld
  /-- A string asked of a field for which none is given (R175). Raised by `render`; safe. -/
  | renderNoString
deriving DecidableEq, Repr

/-- The machine right after a reset edge: every response register 0 (R231), the default tables (R131, R136), and no cycle
presented by the host yet (log 2). -/
def State.reset : State where
  rspValid := 0
  payload  := Payload.zero
  brRom    := []
  srRom    := []
  phase    := .afterReset
  cycles   := []

/-- The machine at power-on: every response register holds a value the spec does not give (R232; log 7). -/
def State.powerOn : State where
  rspValid := (Config.powerOnBits 0).extractLsb' 73 1
  payload  := Payload.ofBits (Config.powerOnBits 0)
  brRom    := []
  srRom    := []
  phase    := .beforeReset 0
  cycles   := []

end Sys2Proof.Machine
end

