-- ==== Sys2Proof/Machine/Tables.lean ====
section
/-! DEFINITION. The two ROMs: what an unlisted address reads as (the default tables of spec/41_resolve.md R131 and R136), the
read of one entry (20_memory.md R50, R55), the canonical form of a ROM's list of cells, which table arguments are legal
(R132 to R135, R137 to R139), and building a machine with a table argument (00_scope.md R6). -/

namespace Sys2Proof.Machine

/-! ### The default tables -/

/-- A row of a reserved version or layer: sixteen INVALID entries (R132). -/
def brReservedRow : List Int := [-1, -1, -1, -1, -1, -1, -1, -1, -1, -1, -1, -1, -1, -1, -1, -1]

/-- The MPEG-2 and MPEG-2.5 rows of LAYER_3 and of LAYER_2 (R131). -/
def brLowRow : List Int := [0, 1, 2, 3, 4, 5, 6, 7, 8, 10, 12, 14, 16, 18, 20, -1]

/-- The MPEG-2 and MPEG-2.5 rows of LAYER_1 (R131). -/
def brLowLayer1Row : List Int := [0, 4, 6, 7, 8, 10, 12, 14, 16, 18, 20, 22, 24, 28, 32, -1]

/-- The MPEG-1 row of LAYER_3 (R131). -/
def brMpeg1Layer3Row : List Int := [0, 4, 5, 6, 7, 8, 10, 12, 14, 16, 20, 24, 28, 32, 40, -1]

/-- The MPEG-1 row of LAYER_2 (R131). -/
def brMpeg1Layer2Row : List Int := [0, 4, 6, 7, 8, 10, 12, 14, 16, 20, 24, 28, 32, 40, 48, -1]

/-- The MPEG-1 row of LAYER_1 (R131). -/
def brMpeg1Layer1Row : List Int := [0, 4, 8, 12, 16, 20, 24, 28, 32, 36, 40, 44, 48, 52, 56, -1]

/-- The four rows of MPEG-2.5, and the equal ones of MPEG-2, by layer code (R131). -/
def brLowVersion : List Int := brReservedRow ++ brLowRow ++ brLowRow ++ brLowLayer1Row

/-- The default `BR_LUT`, by address (R51, R131): versions 0b00, 0b01, 0b10, 0b11. The cells the source does not state are
the spec's "[from general knowledge, not in source]" (GK1, GK2; log 4). -/
def brDefaultTable : List Int :=
  brLowVersion
    ++ (brReservedRow ++ brReservedRow ++ brReservedRow ++ brReservedRow)
    ++ brLowVersion
    ++ (brReservedRow ++ brMpeg1Layer3Row ++ brMpeg1Layer2Row ++ brMpeg1Layer1Row)

/-- The default `SR_LUT`, by address (R52, R136). The cells the source does not state are GK3 (log 4). -/
def srDefaultTable : List Nat :=
  [11025, 12000, 8000, 0] ++ [0, 0, 0, 0] ++ [22050, 24000, 16000, 0] ++ [44100, 48000, 32000, 0]

/-- What an unlisted `BR_ROM` address reads as: the default entry, 8-bit two's complement (R131). No 8-bit address is outside
the table (R51; log 15). -/
def brDefault (a : Nat) : BitVec 8 := BitVec.ofInt 8 (brDefaultTable.getD a (-1))

/-- What an unlisted `SR_ROM` address reads as: the default entry (R136). No 4-bit address is outside the table (R52;
log 15). -/
def srDefault (a : Nat) : BitVec 16 := BitVec.ofNat 16 (srDefaultTable.getD a 0)

/-! ### Reading -/

/-- The entry at an address: the listed cell, else what an unlisted address reads as. -/
def romRead {w : Nat} (unlisted : Nat → BitVec w) : List (Nat × BitVec w) → Nat → BitVec w
  | [], a => unlisted a
  | (b, x) :: rest, a => if a = b then x else romRead unlisted rest a

/-- `MemRead(BR_ROM, a, 1)` (00_scope.md R10, R50): one whole entry, no side effect (R55, R57). -/
def brEntry (rom : List Host.Cell) (a : BitVec 8) : BitVec 8 := romRead brDefault rom a.toNat

/-- `MemRead(SR_ROM, a, 1)` (00_scope.md R10, R50). -/
def srEntry (rom : List (Nat × BitVec 16)) (a : BitVec 4) : BitVec 16 := romRead srDefault rom a.toNat

/-! ### Canonical form -/

/-- The canonical form of a ROM's list: addresses inside the ROM and strictly rising, no cell equal to what its address reads
as unlisted. Equal contents are then equal lists. -/
def Memory.wf {w : Nat} (size : Nat) (unlisted : Nat → BitVec w) : List (Nat × BitVec w) → Bool
  | [] => true
  | (a, x) :: rest =>
      decide (a < size) && x != unlisted a && rest.all (fun c => decide (a < c.1)) && Memory.wf size unlisted rest

/-- The canonical list of a table given entry by entry from address `a`. -/
def Memory.ofTable {w : Nat} (unlisted : Nat → BitVec w) (a : Nat) : List (BitVec w) → List (Nat × BitVec w)
  | [] => []
  | x :: rest =>
      if x = unlisted a then Memory.ofTable unlisted (a + 1) rest
      else (a, x) :: Memory.ofTable unlisted (a + 1) rest

/-! ### Legal table arguments -/

/-- Version 0b01 or layer 0b00: the seven reserved rows (R132). -/
def brReserved (a : Nat) : Bool := a / 64 == 1 || a / 16 % 4 == 0

/-- What every `BR_LUT` argument must hold at an address: -1, 0 or 1 to 127 (R135); -1 in a reserved row (R132); 0 at index 0
of every other row (R133); 16 and -1 at the two stated cells of `(MPEG_1, LAYER_3)` (R134). -/
def brCellOk (a : Nat) (e : BitVec 8) : Bool :=
  decide (-1 ≤ e.toInt)
    && (!brReserved a || decide (e.toInt = -1))
    && (brReserved a || a % 16 != 0 || decide (e.toInt = 0))
    && (a != 0xD9 || decide (e.toInt = 16))
    && (a != 0xDF || decide (e.toInt = -1))

/-- What every `SR_LUT` argument must hold at an address: 0 in the reserved row and at index 3 (R137), the two stated cells
(R138). Any 16-bit entry is a legal entry (R139). -/
def srCellOk (a : Nat) (e : BitVec 16) : Bool :=
  (!(a / 4 == 1 || a % 4 == 3) || decide (e = 0))
    && (a != 0xC || decide (e.toNat = 44100))
    && (a != 0x2 || decide (e.toNat = 8000))

/-- A legal `BR_ROM`: canonical, and every listed cell legal (the default cells are). -/
def brLegal (rom : List Host.Cell) : Bool := Memory.wf 256 brDefault rom && rom.all (fun c => brCellOk c.1 c.2)

/-- A legal `SR_ROM`. -/
def srLegal (rom : List (Nat × BitVec 16)) : Bool :=
  Memory.wf 16 srDefault rom && rom.all (fun c => srCellOk c.1 c.2)

/-- Nothing runs on a table argument the rules refuse (R135, R139; log 5): the shared guard of every edge. -/
def guardTables (s : State) (next : State) : Host.Outcome State Fault Refusal :=
  if brLegal s.brRom then
    if srLegal s.srRom then .next next else .refused .illegalSrLut
  else .refused .illegalBrLut

/-- Building the block with a `BR_LUT` and an `SR_LUT` argument, given entry by entry in address order (R6, R50). An argument
of another size, or one that breaks R132 to R135 or R137 to R139, is refused. -/
def buildTables (br : List (BitVec 8)) (sr : List (BitVec 16)) (s : State) : Host.Outcome State Fault Refusal :=
  if br.length = 256 ∧ brLegal (Memory.ofTable brDefault 0 br) = true then
    if sr.length = 16 ∧ srLegal (Memory.ofTable srDefault 0 sr) = true then
      .next { s with brRom := Memory.ofTable brDefault 0 br, srRom := Memory.ofTable srDefault 0 sr }
    else .refused .illegalSrLut
  else .refused .illegalBrLut

end Sys2Proof.Machine
end

