-- ==== Sys2Proof/Machine/Operands.lean ====
section
/-! DEFINITION. The operand forms of a table lookup: the ROM addresses of spec/20_memory.md R51 and R52. (Which bits of the
request are which operand is decoding: Decode.lean, R73 to R75.) -/

namespace Sys2Proof.Machine

/-- The `BR_ROM` address `{version, layer, bitrate_index}` (R51). -/
def brAddr (v l : BitVec 2) (i : BitVec 4) : BitVec 8 := v ++ l ++ i

/-- The `SR_ROM` address `{version, sample_rate_index}` (R52). -/
def srAddr (v i : BitVec 2) : BitVec 4 := v ++ i

end Sys2Proof.Machine
end

