-- ==== Sys2Proof/Machine/Flags.lean ====
section
/-! DEFINITION. The flags of a response: the status codes of spec/60_exceptions.md R200, the kind codes of 10_state.md R28 and
R29 with their query predicates, and the classification of a table entry into a kind and a value (41_resolve.md R140,
R145). -/

namespace Sys2Proof.Machine

/-- `rsp_status` OK (R200). -/
@[simp] abbrev statusOk : BitVec 2 := 0b00#2
/-- `rsp_status` INVALID_SYNC (R200). -/
@[simp] abbrev statusInvalidSync : BitVec 2 := 0b01#2
/-- `rsp_status` ILLEGAL_OP (R200). -/
@[simp] abbrev statusIllegalOp : BitVec 2 := 0b10#2

/-- `br_kind` NONE (R28). -/
@[simp] abbrev brNone : BitVec 2 := 0b00#2
/-- `br_kind` VALID (R28). -/
@[simp] abbrev brValid : BitVec 2 := 0b01#2
/-- `br_kind` ANY (R28). -/
@[simp] abbrev brAny : BitVec 2 := 0b10#2
/-- `br_kind` INVALID (R28). -/
@[simp] abbrev brInvalid : BitVec 2 := 0b11#2

/-- `sr_kind` NONE (R29). -/
@[simp] abbrev srNone : BitVec 2 := 0b00#2
/-- `sr_kind` VALID (R29). -/
@[simp] abbrev srValid : BitVec 2 := 0b01#2
/-- `sr_kind` RESERVED (R29). -/
@[simp] abbrev srReserved : BitVec 2 := 0b10#2

/-- A bitrate result: the values of `br_kind`, `br_raw` and `br_bps` (R140). -/
structure BrResult where
  kind : BitVec 2
  raw  : BitVec 8
  bps  : BitVec 20
deriving DecidableEq, Repr

/-- A sample-rate result: the values of `sr_kind` and `sr_hz` (R145). -/
structure SrResult where
  kind : BitVec 2
  hz   : BitVec 16
deriving DecidableEq, Repr

/-- A bitrate entry classified by its value (R140; D13): -1 is INVALID, 0 is ANY, any other is VALID at `e × 8000` (R130,
R141). -/
def classifyBr (e : BitVec 8) : BrResult :=
  if e.toInt = -1 then ⟨brInvalid, e, 0⟩
  else if e.toInt = 0 then ⟨brAny, e, 0⟩
  else ⟨brValid, e, BitVec.ofInt 20 (e.toInt * Config.brUnit)⟩

/-- A sample-rate entry classified by its value (R145): 0 is RESERVED, any other is VALID. -/
def classifySr (e : BitVec 16) : SrResult :=
  if e = 0 then ⟨srReserved, 0⟩ else ⟨srValid, e⟩

/-- `resolve_br(v, l, i)`: one uniform lookup and the classification of its entry (R140). -/
def resolveBr (rom : List Host.Cell) (v l : BitVec 2) (i : BitVec 4) : BrResult :=
  classifyBr (brEntry rom (brAddr v l i))

/-- `resolve_sr(v, i)` (R145). -/
def resolveSr (rom : List (Nat × BitVec 16)) (v i : BitVec 2) : SrResult :=
  classifySr (srEntry rom (srAddr v i))

/-- `is_any = (br_kind == 0b10)` (R28). -/
def Payload.isAny (p : Payload) : Bool := p.brKind == brAny

/-- `is_invalid = (br_kind == 0b11)` (R28). -/
def Payload.isInvalid (p : Payload) : Bool := p.brKind == brInvalid

/-- `is_reserved = (sr_kind == 0b10)` (R29). -/
def Payload.isReserved (p : Payload) : Bool := p.srKind == srReserved

end Sys2Proof.Machine
end

