-- ==== Sys2Proof/Machine/Ops.lean ====
section
/-! DEFINITION. The shared operations: what one clock edge writes into the response registers (spec/10_state.md R24, R26;
70_reset_and_hazards.md R230), raising an error (60_exceptions.md R203: it is no trap, so there is no return from it, R206,
R207), and taking the next cycle from the host (R20, R21). -/

namespace Sys2Proof.Machine

/-- The response registers written, nothing else changed. -/
def State.withResponse (s : State) (valid : BitVec 1) (p : Payload) : State := { s with rspValid := valid, payload := p }

/-- The phase replaced, nothing else changed. -/
def State.withPhase (s : State) (ph : Phase) : State := { s with phase := ph }

/-- Every response register unspecified, `edges` edges after power-on (R232; log 7). -/
def State.withUnspecified (s : State) (edges : Nat) : State :=
  (s.withResponse ((Config.powerOnBits edges).extractLsb' 73 1) (Payload.ofBits (Config.powerOnBits edges))).withPhase
    (.beforeReset edges)

/-- What an edge with `rst = 0` leaves: the response registers as R24 writes them, once the block has been reset; until its
first reset edge they stay unspecified, whatever the edge writes (R232; log 7). -/
def State.withUpdate (s : State) (valid : BitVec 1) (p : Payload) : State :=
  match s.phase with
  | .afterReset => s.withResponse valid p
  | .beforeReset edges => s.withUnspecified (edges + 1)

/-- The host's coming cycles replaced, nothing else changed. -/
def State.withCycles (s : State) (cs : List Cycle) : State := { s with cycles := cs }

/-- `r.rsp_op <- op` (R24). -/
def Payload.withOp (p : Payload) (op : BitVec 2) : Payload := { p with rspOp := op }

/-- `r.rsp_status <- status` (R100, R203). -/
def Payload.withStatus (p : Payload) (status : BitVec 2) : Payload := { p with rspStatus := status }

/-- An edge with `rst = 0`: its write of the whole response register set (R24, R232). -/
def writeResponse (valid : BitVec 1) (p : Payload) (s : State) : Host.Outcome State Fault Refusal :=
  guardTables s (s.withUpdate valid p)

/-- The edge that answers a request: the complete payload, then `rsp_op <- req_op` and `rsp_valid <- 1` (R24). -/
def respond (op : BitVec 2) (p : Payload) (s : State) : Host.Outcome State Fault Refusal :=
  writeResponse 1 (p.withOp op) s

/-- The edge with `rst = 1`: every response register takes its reset value; a request of that cycle is dropped (R230,
R231). The registers hold specified values from here on (R232). -/
def resetEdge (s : State) : Host.Outcome State Fault Refusal :=
  guardTables s ((s.withResponse 0 Payload.zero).withPhase .afterReset)

/-- The edge with `rst = 0` and `req_valid = 0`: `rsp_valid <- 0`, the payload holds (R26). -/
def idleEdge (s : State) : Host.Outcome State Fault Refusal := writeResponse 0 s.payload s

/-- `raise E()`: a payload with `rsp_status = E` and every other field 0 (R203; 00_scope.md R10). -/
def raise (status : BitVec 2) : Payload := Payload.zero.withStatus status

/-- A bitrate result written into a payload: `(r.br_kind, r.br_raw, r.br_bps) <- …` (R100, R150). -/
def Payload.withBr (p : Payload) (b : BrResult) : Payload :=
  { p with brKind := b.kind, brRaw := b.raw, brBps := b.bps }

/-- A sample-rate result written into a payload: `(r.sr_kind, r.sr_hz) <- …` (R100, R155). -/
def Payload.withSr (p : Payload) (r : SrResult) : Payload := { p with srKind := r.kind, srHz := r.hz }

/-- The twelve `f_` fields written from the header (R100, R103). -/
def Payload.withHeader (p : Payload) (h : Header) : Payload :=
  { p with
    fVersion    := h.version
    fLayer      := h.layer
    fProtection := h.protection
    fBrIndex    := h.brIndex
    fSrIndex    := h.srIndex
    fPadding    := h.padding
    fPrivate    := h.privateFlag
    fMode       := h.mode
    fModeExt    := h.modeExt
    fCopyright  := h.copyright
    fOriginal   := h.original
    fEmphasis   := h.emphasis }

/-- The inputs of the coming edge, and the state with that cycle consumed. A host with nothing more to drive presents no
request and no reset: an idle cycle (log 2). -/
def nextCycle (s : State) : Cycle × State :=
  match s.cycles with
  | [] => (Cycle.idle, s)
  | c :: rest => (c, s.withCycles rest)

end Sys2Proof.Machine
end

