-- ==== Sys2Proof/Machine/HeaderDecode.lean ====
section
/-! DEFINITION. DECODE (spec/40_decode.md R100 to R109). -/

namespace Sys2Proof.Machine

/-- `execute(0b00, W)` (R100): the sync check comes first and a failed one leaves no field (R101); then the twelve fields and
both resolutions, with status OK whatever they hold (R102, R104, R146). -/
def decodePayload (br : List Host.Cell) (sr : List (Nat × BitVec 16)) (sync : BitVec 11) (h : Header) : Payload :=
  if sync = Config.syncPattern then
    (((Payload.zero.withStatus statusOk).withHeader h).withBr (resolveBr br h.version h.layer h.brIndex)).withSr
      (resolveSr sr h.version h.srIndex)
  else raise statusInvalidSync

/-- DECODE (R100, R24). -/
def execDecode (sync : BitVec 11) (h : Header) (s : State) : Host.Outcome State Fault Refusal :=
  respond 0b00#2 (decodePayload s.brRom s.srRom sync h) s

end Sys2Proof.Machine
end

