-- ==== Sys2Proof/Machine/Illegal.lean ====
section
/-! DEFINITION. OP3, the reserved operation code (spec/43_illegal.md R190). -/

namespace Sys2Proof.Machine

/-- `execute(0b11, D)` (R190): raises ILLEGAL_OP, reads neither ROM. -/
def op3Payload : Payload := raise statusIllegalOp

/-- OP3 (R190, R24). -/
def execOp3 (s : State) : Host.Outcome State Fault Refusal := respond 0b11#2 op3Payload s

end Sys2Proof.Machine
end

