-- ==== Sys2Proof/Machine/Resolve.lean ====
section
/-! DEFINITION. RESOLVE.BR and RESOLVE.SR (spec/41_resolve.md R150, R155). -/

namespace Sys2Proof.Machine

/-- `execute(0b01, D)` (R150): a zero payload with the bitrate result; the sync prefix is not checked. -/
def resolveBrPayload (br : List Host.Cell) (v l : BitVec 2) (i : BitVec 4) : Payload :=
  (Payload.zero.withStatus statusOk).withBr (resolveBr br v l i)

/-- RESOLVE.BR (R150, R24). -/
def execResolveBr (v l : BitVec 2) (i : BitVec 4) (s : State) : Host.Outcome State Fault Refusal :=
  respond 0b01#2 (resolveBrPayload s.brRom v l i) s

/-- `execute(0b10, D)` (R155): a zero payload with the sample-rate result. -/
def resolveSrPayload (sr : List (Nat × BitVec 16)) (v i : BitVec 2) : Payload :=
  (Payload.zero.withStatus statusOk).withSr (resolveSr sr v i)

/-- RESOLVE.SR (R155, R24). -/
def execResolveSr (v i : BitVec 2) (s : State) : Host.Outcome State Fault Refusal :=
  respond 0b10#2 (resolveSrPayload s.srRom v i) s

end Sys2Proof.Machine
end

