-- ==== Sys2Proof/Machine/Dispatch.lean ====
section
/-! DEFINITION. One arm per row of spec/opcode_table.json. -/

namespace Sys2Proof.Machine

/-- The edge that answers a request (spec/10_state.md R24), by operation (30_encoding.md R71). -/
def exec (i : Instr) (s : State) : Host.Outcome State Fault Refusal :=
  match i with
  | .decode sync header => Sys2Proof.Machine.execDecode sync header s
  | .resolveBr version layer brIndex => Sys2Proof.Machine.execResolveBr version layer brIndex s
  | .resolveSr version srIndex => Sys2Proof.Machine.execResolveSr version srIndex s
  | .op3 => Sys2Proof.Machine.execOp3 s

end Sys2Proof.Machine
end

