-- ==== Sys2Proof/Machine/Edge.lean ====
section
/-! DEFINITION. One rising edge of `clk` under given port inputs (spec/10_state.md R24). -/

namespace Sys2Proof.Machine

/-- R24: reset has priority (R230); then a presented request is answered; else the idle write. `req_op` and `req_data` are
read only when a request is taken (R21). -/
def edge (c : Cycle) (s : State) : Host.Outcome State Fault Refusal :=
  if c.rst = 1 then resetEdge s
  else if c.reqValid = 1 then exec (decodePort c.reqOp c.reqData) s
  else idleEdge s

/-- The cycle that presents the request whose bits are `w % 2 ^ nbits`, as the request port numbers them (R70). -/
def requestCycle (nbits w : Nat) : Cycle :=
  Cycle.request ((BitVec.ofNat 34 (w % 2 ^ nbits)).extractLsb' 32 2)
    ((BitVec.ofNat 34 (w % 2 ^ nbits)).extractLsb' 0 32)

end Sys2Proof.Machine
end

