-- ==== Sys2Proof/Machine/Step.lean ====
section
/-! DEFINITION. One step of the machine is one rising edge of `clk` (spec/10_state.md R20, R24; log 1), under the inputs the
host drives in that cycle. -/

namespace Sys2Proof.Machine

/-- One rising edge of `clk`. -/
def step (s : State) : Host.Outcome State Fault Refusal := edge (nextCycle s).1 (nextCycle s).2

/-- `s` with that request presented on the request port in the coming cycle, before whatever the host drives after it
(log 3). -/
def State.withFetchWord (s : State) (nbits w : Nat) : State :=
  s.withCycles (requestCycle nbits w :: s.cycles)

end Sys2Proof.Machine
end

