-- ==== Sys2Proof/Machine/Names.lean ====
section
/-! DEFINITION. The names of the enumerated codes (spec/30_encoding.md R76): a host reading of the raw codes the registers
hold (10_state.md R23; D25). -/

namespace Sys2Proof.Machine

/-- The name of an AudioVersion code (R76). -/
def audioVersion (code : BitVec 2) : AudioVersion :=
  if code = 0b00#2 then .mpeg25 else if code = 0b01#2 then .reserved else if code = 0b10#2 then .mpeg2 else .mpeg1

/-- The name of a Layer code (R76). -/
def layer (code : BitVec 2) : Layer :=
  if code = 0b00#2 then .reserved else if code = 0b01#2 then .layer3 else if code = 0b10#2 then .layer2 else .layer1

/-- The name of a ChannelMode code (R76; log 16). -/
def channelMode (code : BitVec 2) : ChannelMode :=
  if code = 0b00#2 then .stereo else if code = 0b01#2 then .joint else if code = 0b10#2 then .dual else .single

/-- The name of an Emphasis code (R76, R109; 90_conflicts.md C2; log 16). -/
def emphasis (code : BitVec 2) : Emphasis :=
  if code = 0b00#2 then .none else if code = 0b01#2 then .ms50_15 else if code = 0b10#2 then .reserved else .ccitJ17

end Sys2Proof.Machine
end

