-- ==== Sys2Proof/Machine/Observe.lean ====
section
/-! DEFINITION. What the host sees: the output ports (spec/10_state.md R22), a response taken only where `rsp_valid = 1` (R26;
92_eei_decisions.md D30), the codes that are never produced (93_implementation_defined.md), the answer a cycle gets (R24,
R25), and the re-encoding of a header (40_decode.md R105). -/

namespace Sys2Proof.Machine

/-- The output ports: one per response register, of the same name (R22). -/
structure OutputPorts where
  rspValid : BitVec 1
  payload  : Payload
deriving DecidableEq, Repr

/-- Each output port is driven directly by its register (R22). -/
def outputPorts (s : State) : OutputPorts := ⟨s.rspValid, s.payload⟩

/-- The host's reading of the output ports in one cycle: nothing while `rsp_valid = 0` (R26; log 6); a response with a code
that is never produced is a fault (93_implementation_defined.md; log 8). -/
def sample (out : OutputPorts) : Except Fault (Option Payload) :=
  if out.rspValid = 1 then
    if out.payload.rspStatus = 0b11#2 then .error .statusNeverProduced
    else if out.payload.srKind = 0b11#2 then .error .srKindNeverProduced
    else .ok (some out.payload)
  else .ok none

/-- The observation of a run (D30): what the host reads after each of the next `n` edges, up to a refusal. -/
def observations : Nat → State → List (Except Fault (Option Payload))
  | 0, _ => []
  | n + 1, s =>
      match step s with
      | .next t => sample (outputPorts t) :: observations n t
      | .fault _ => []
      | .refused _ => []

/-- The complete payload that answers a request, from the request and the two ROMs alone (R24, R25). -/
def answer (br : List Host.Cell) (sr : List (Nat × BitVec 16)) (i : Instr) : Payload :=
  match i with
  | .decode sync h => (decodePayload br sr sync h).withOp i.op
  | .resolveBr v l j => (resolveBrPayload br v l j).withOp i.op
  | .resolveSr v j => (resolveSrPayload sr v j).withOp i.op
  | .op3 => op3Payload.withOp i.op

/-- What the host reads after the edge of a cycle: the answer to the request it presents, if it presents one and no reset
drops it (R24, R230). -/
def answerOfCycle (br : List Host.Cell) (sr : List (Nat × BitVec 16)) (c : Cycle) : Option Payload :=
  if c.rst = 1 then none
  else if c.reqValid = 1 then some (answer br sr (decodePort c.reqOp c.reqData))
  else none

/-- `encode(r)` of R105: the header word of a response's fields. -/
def Payload.reencode (r : Payload) : HeaderWord :=
  0xFFE00000#32
    ||| r.fVersion.setWidth 32 <<< 19 ||| r.fLayer.setWidth 32 <<< 17
    ||| r.fProtection.setWidth 32 <<< 16 ||| r.fBrIndex.setWidth 32 <<< 12 ||| r.fSrIndex.setWidth 32 <<< 10
    ||| r.fPadding.setWidth 32 <<< 9 ||| r.fPrivate.setWidth 32 <<< 8 ||| r.fMode.setWidth 32 <<< 6
    ||| r.fModeExt.setWidth 32 <<< 4 ||| r.fCopyright.setWidth 32 <<< 3 ||| r.fOriginal.setWidth 32 <<< 2
    ||| r.fEmphasis.setWidth 32

end Sys2Proof.Machine
end

