-- ==== Sys2Proof/Machine/Render.lean ====
section
/-! DEFINITION. The field renderers (spec/42_render.md R170 to R175): host-side functions of a response, no part of the
block (00_scope.md R5). -/

namespace Sys2Proof.Machine

/-- What a consumer may ask a string of: the four fields with a renderer (R171 to R174) and the eight without (R175). -/
inductive RenderItem where
  | version | layer | bitrate | sampleRate
  | protection | padding | privateFlag | channelMode | extensionMode | copyright | original | emphasis
deriving DecidableEq, Repr

/-- `render_version` (R171). -/
def renderVersion (fVersion : BitVec 2) : String :=
  match audioVersion fVersion with
  | .mpeg1 => "1"
  | .mpeg2 => "2"
  | .mpeg25 => "2.5"
  | .reserved => "INVALID"

/-- `render_layer` (R172). -/
def renderLayer (fLayer : BitVec 2) : String :=
  match layer fLayer with
  | .layer1 => "1"
  | .layer2 => "2"
  | .layer3 => "3"
  | .reserved => "INVALID"

/-- Decimal digits with no sign, leading zero, separator or unit (R173; D18). -/
def decimal (n : Nat) : String := String.ofList (Nat.toDigits 10 n)

/-- `render_bitrate` (R173); refused for NONE. -/
def renderBitrate (brKind : BitVec 2) (brBps : BitVec 20) : Except Refusal String :=
  if brKind = brValid then .ok (decimal brBps.toNat)
  else if brKind = brAny then .ok "ANY"
  else if brKind = brInvalid then .ok "INVALID"
  else .error .renderNotHeld

/-- `render_sample_rate` (R174); refused for NONE; 0b11 is never produced and is a fault
where the host samples it. -/
def renderSampleRate (srKind : BitVec 2) (srHz : BitVec 16) : Except Refusal String :=
  if srKind = srValid then .ok (decimal srHz.toNat)
  else if srKind = srReserved then .ok "INVALID"
  else .error .renderNotHeld

/-- A field of the header is held by a DECODE response only (R170, R150, R155; log 14). -/
def renderHeaderField (p : Payload) (text : String) : Except Refusal String :=
  if p.rspOp = 0b00#2 then .ok text else .error .renderNotHeld

/-- The string of an item of a response with status OK (R170 to R175). -/
def renderPayload (item : RenderItem) (p : Payload) : Except Refusal String :=
  match item with
  | .version => renderHeaderField p (renderVersion p.fVersion)
  | .layer => renderHeaderField p (renderLayer p.fLayer)
  | .bitrate => renderBitrate p.brKind p.brBps
  | .sampleRate => renderSampleRate p.srKind p.srHz
  | .protection => .error .renderNoString
  | .padding => .error .renderNoString
  | .privateFlag => .error .renderNoString
  | .channelMode => .error .renderNoString
  | .extensionMode => .error .renderNoString
  | .copyright => .error .renderNoString
  | .original => .error .renderNoString
  | .emphasis => .error .renderNoString

/-- What asking for a string gives: the text, the fault the host records on a code that is never produced, or a refusal. -/
inductive Rendering where
  | text (t : String)
  | fault (f : Fault)
  | refused (r : Refusal)
deriving DecidableEq, Repr

/-- A renderer asked of the output ports: defined only for a response with `rsp_valid = 1` and status OK that holds the
field (R170). -/
def render (item : RenderItem) (out : OutputPorts) : Rendering :=
  match sample out with
  | .error f => .fault f
  | .ok none => .refused .renderNoResult
  | .ok (some p) =>
      if p.rspStatus = statusOk then
        match renderPayload item p with
        | .ok t => .text t
        | .error r => .refused r
      else .refused .renderNoResult

end Sys2Proof.Machine
end

