-- ==== Sys2Proof/Safety.lean ====
section
/-! DEFINITION. What counts as a good state: legal table arguments (spec/41_resolve.md R132 to R139), and response registers
that agree with each other as the rules say (10_state.md R28, R29; 60_exceptions.md R200, R203). -/

namespace Sys2Proof.Machine

/-- Both table arguments are legal (R135, R139). -/
abbrev State.TablesLegal (s : State) : Prop := brLegal s.brRom = true ∧ srLegal s.srRom = true

/-- The block is in use: built with legal tables (R135, R139), and reset at least once, as the host must before it reads a
response (R234; before that R232 leaves the registers unspecified). -/
abbrev State.Ready (s : State) : Prop := s.TablesLegal ∧ s.phase = .afterReset

/-- A `BR_LUT` argument the rules allow, entry by entry: 256 entries of -1, 0 or 1 to 127 (R135), the reserved rows -1 (R132),
index 0 of every other row 0 (R133), and the two stated cells (R134). -/
def LegalBrArgument (br : List (BitVec 8)) : Prop :=
  br.length = 256 ∧
    ∀ v l i : Nat, v < 4 → l < 4 → i < 16 → ∀ e, br[64 * v + 16 * l + i]? = some e →
      (e.toInt = -1 ∨ e.toInt = 0 ∨ (1 ≤ e.toInt ∧ e.toInt ≤ 127))
        ∧ (v = 1 ∨ l = 0 → e.toInt = -1)
        ∧ (v ≠ 1 → l ≠ 0 → i = 0 → e.toInt = 0)
        ∧ (v = 3 → l = 1 → i = 9 → e.toInt = 16)
        ∧ (v = 3 → l = 1 → i = 15 → e.toInt = -1)

/-- An `SR_LUT` argument the rules allow: 16 entries (R139), the reserved row and index 3 zero (R137), the two stated cells
(R138). -/
def LegalSrArgument (sr : List (BitVec 16)) : Prop :=
  sr.length = 16 ∧
    ∀ v i : Nat, v < 4 → i < 4 → ∀ e, sr[4 * v + i]? = some e →
      (v = 1 ∨ i = 3 → e.toNat = 0)
        ∧ (v = 3 → i = 0 → e.toNat = 44100)
        ∧ (v = 0 → i = 2 → e.toNat = 8000)

/-- The payload's bitrate fields are the result of table entry `e` (R140, R28): `br_raw` is its 8 bits, -1 is INVALID, 0 is
ANY, any other is VALID at exactly `e × 8000` bits per second. -/
def Payload.IsBrResult (p : Payload) (e : BitVec 8) : Prop :=
  p.brRaw = e
    ∧ (e.toInt = -1 → p.brKind = 0b11#2 ∧ p.brBps = 0)
    ∧ (e.toInt = 0 → p.brKind = 0b10#2 ∧ p.brBps = 0)
    ∧ (e.toInt ≠ -1 → e.toInt ≠ 0 → p.brKind = 0b01#2 ∧ (p.brBps.toNat : Int) = e.toInt * 8000)

/-- The payload's sample-rate fields are the result of table entry `e` (R145, R29): 0 is RESERVED, any other is VALID. -/
def Payload.IsSrResult (p : Payload) (e : BitVec 16) : Prop :=
  (e = 0 → p.srKind = 0b10#2 ∧ p.srHz = 0) ∧ (e ≠ 0 → p.srKind = 0b01#2 ∧ p.srHz = e)

/-- Every `f_` field is 0: no part of a header is shown (R101, R203; D24). -/
def Payload.NoHeader (p : Payload) : Prop :=
  p.fVersion = 0 ∧ p.fLayer = 0 ∧ p.fProtection = 0 ∧ p.fBrIndex = 0 ∧ p.fSrIndex = 0 ∧ p.fPadding = 0
    ∧ p.fPrivate = 0 ∧ p.fMode = 0 ∧ p.fModeExt = 0 ∧ p.fCopyright = 0 ∧ p.fOriginal = 0 ∧ p.fEmphasis = 0

/-- The bitrate fields agree (R28, R130, R140, R141). -/
def Payload.BrConsistent (p : Payload) : Prop :=
  (p.brKind = brNone → p.brRaw = 0 ∧ p.brBps = 0)
    ∧ (p.brKind = brAny → p.brRaw = 0 ∧ p.brBps = 0)
    ∧ (p.brKind = brInvalid → p.brRaw = 0xFF#8 ∧ p.brBps = 0)
    ∧ (p.brKind = brValid → 1 ≤ p.brRaw.toNat ∧ p.brRaw.toNat ≤ 127 ∧ p.brBps.toNat = p.brRaw.toNat * 8000)

/-- The sample-rate fields agree (R29, R145). -/
def Payload.SrConsistent (p : Payload) : Prop :=
  p.srKind ≠ 0b11#2
    ∧ (p.srKind = srValid → p.srHz ≠ 0)
    ∧ (p.srKind ≠ srValid → p.srHz = 0)

/-- What the response registers hold after a reset edge and after every edge since: the rate fields agree, the status code is one
that is produced (R200), an error leaves no result and no header (R203), and a resolver or OP3 leaves no header (R150, R155,
R190). -/
def Payload.Consistent (p : Payload) : Prop :=
  p.BrConsistent ∧ p.SrConsistent
    ∧ p.rspStatus ≠ 0b11#2
    ∧ (p.rspStatus ≠ statusOk → p.NoHeader ∧ p.brKind = brNone ∧ p.srKind = srNone)
    ∧ (p.rspStatus = statusInvalidSync → p.rspOp = 0b00#2)
    ∧ (p.rspStatus = statusIllegalOp ↔ p.rspOp = 0b11#2)
    ∧ (p.rspOp ≠ 0b00#2 → p.NoHeader)
    ∧ (p.rspOp = 0b01#2 → p.srKind = srNone ∧ p.brKind ≠ brNone)
    ∧ (p.rspOp = 0b10#2 → p.brKind = brNone ∧ p.srKind ≠ srNone)

/-- The invariant of the block (reset and power-on have it, every edge keeps it): legal tables; and, once a reset edge has
happened (R232), registers that agree, and a valid DECODE response with status OK has both rates resolved (R100). -/
def State.Inv (s : State) : Prop :=
  s.TablesLegal
    ∧ (s.phase = .afterReset →
        s.payload.Consistent
          ∧ (s.rspValid = 1 → s.payload.rspOp = 0b00#2 → s.payload.rspStatus = statusOk →
              s.payload.brKind ≠ brNone ∧ s.payload.srKind ≠ srNone))

/-- A safe run: the next `n` edges all happen, and the host never reads a code that is never produced. -/
def State.SafeFor (n : Nat) (s : State) : Prop :=
  (observations n s).length = n ∧ ∀ f, Except.error f ∉ observations n s

end Sys2Proof.Machine
end

