-- ==== Sys2Proof/Certificates/Slice0/Obligations.lean ====
section
/-! DEFINITION. The statements about the block, for the provers. Each docstring says which rule of spec/ it formalises. In
every statement a "legal" state is one whose table arguments the rules allow (spec/41_resolve.md R132 to R139), and a "ready"
state is a legal one that has seen a reset edge, as 70_reset_and_hazards.md R234 asks of the host; the response registers are
arbitrary. `phase` is the model's field for R232's "before the first reset edge", and that R232 limits R24 there is the model's
reading (log 7). What a block does before its first reset edge is BeforeFirstResetRegistersAreUnspecified. -/

open Sys2Proof Sys2Proof.Machine

/-! ### Encoding -/

/-- 30_encoding.md R70 to R74: decoding an encoded instruction gives it back, every operand at every value; its operation
code is in bits 33:32. -/
def Obligations.EncodeThenDecode : Prop :=
  ∀ i : Instr, decodeRequest (encode i) = i ∧ (encode i).extractLsb' 32 2 = i.op

/-- 30_encoding.md R70, R73: encoding what a request decodes to gives the request back on its operation code and on every
operand bit of its opcode-table row; the bits the row ignores come back 0 (the model's encoder, log 9). -/
def Obligations.DecodeThenEncodeKeepsOperandBits : Prop :=
  ∀ (r : Request), ∀ row ∈ opcodeRows, row.selects r = true →
    encode (decodeRequest r) = r &&& (row.mask ||| row.operands)

/-- 30_encoding.md R71: every request belongs to exactly one row, the row of its operation code, and decodes to that row's
operation. That the instruction's data word is `req_data` whole, or on the operand bits with the ignored bits 0, is the
model's encoder (Instr.data, log 9). -/
def Obligations.EveryRequestSelectsOneRow : Prop :=
  (∀ (op : BitVec 2) (data : HeaderWord),
      (op = 0b00#2 → (decodePort op data).mnemonic = "DECODE")
        ∧ (op = 0b01#2 → (decodePort op data).mnemonic = "RESOLVE.BR")
        ∧ (op = 0b10#2 → (decodePort op data).mnemonic = "RESOLVE.SR")
        ∧ (op = 0b11#2 → (decodePort op data).mnemonic = "OP3")
        ∧ (decodePort op data).op = op
        ∧ (op = 0b00#2 → (decodePort op data).data = data)
        ∧ (op = 0b01#2 → (decodePort op data).data = data &&& 0x001EF000#32)
        ∧ (op = 0b10#2 → (decodePort op data).data = data &&& 0x00180C00#32)
        ∧ (op = 0b11#2 → decodePort op data = .op3))
    ∧ ∀ r : Request, ∃ row ∈ opcodeRows, row.selects r = true ∧ (decodeRequest r).mnemonic = row.mnemonic
        ∧ ∀ other ∈ opcodeRows, other.selects r = true → other = row

/-- 30_encoding.md R75 (the positions of R74): a DECODE request decodes to the eleven sync bits and the twelve fields, each
the unsigned value of its slice, whatever the other bits hold. -/
def Obligations.HeaderFieldsAreSlices : Prop :=
  ∀ w : HeaderWord, ∃ sync h, decodePort 0b00#2 w = .decode sync h
    ∧ sync.toNat = w.toNat / 2 ^ 21
    ∧ h.version.toNat = w.toNat / 2 ^ 19 % 2 ^ 2
    ∧ h.layer.toNat = w.toNat / 2 ^ 17 % 2 ^ 2
    ∧ h.protection.toNat = w.toNat / 2 ^ 16 % 2
    ∧ h.brIndex.toNat = w.toNat / 2 ^ 12 % 2 ^ 4
    ∧ h.srIndex.toNat = w.toNat / 2 ^ 10 % 2 ^ 2
    ∧ h.padding.toNat = w.toNat / 2 ^ 9 % 2
    ∧ h.privateFlag.toNat = w.toNat / 2 ^ 8 % 2
    ∧ h.mode.toNat = w.toNat / 2 ^ 6 % 2 ^ 2
    ∧ h.modeExt.toNat = w.toNat / 2 ^ 4 % 2 ^ 2
    ∧ h.copyright.toNat = w.toNat / 2 ^ 3 % 2
    ∧ h.original.toNat = w.toNat / 2 ^ 2 % 2
    ∧ h.emphasis.toNat = w.toNat % 2 ^ 2

/-- 30_encoding.md R73: the resolver operands stand at their header positions, and every other bit of `req_data`, the sync
prefix included, is ignored. -/
def Obligations.ResolverOperandsAndIgnoredBits : Prop :=
  (∀ d : HeaderWord, ∃ v l i, decodePort 0b01#2 d = .resolveBr v l i
      ∧ v.toNat = d.toNat / 2 ^ 19 % 2 ^ 2 ∧ l.toNat = d.toNat / 2 ^ 17 % 2 ^ 2 ∧ i.toNat = d.toNat / 2 ^ 12 % 2 ^ 4)
    ∧ (∀ d : HeaderWord, ∃ v i, decodePort 0b10#2 d = .resolveSr v i
        ∧ v.toNat = d.toNat / 2 ^ 19 % 2 ^ 2 ∧ i.toNat = d.toNat / 2 ^ 10 % 2 ^ 2)
    ∧ (∀ d d' : HeaderWord, d &&& 0x001EF000#32 = d' &&& 0x001EF000#32 → decodePort 0b01#2 d = decodePort 0b01#2 d')
    ∧ (∀ d d' : HeaderWord, d &&& 0x00180C00#32 = d' &&& 0x00180C00#32 → decodePort 0b10#2 d = decodePort 0b10#2 d')

/-- 00_scope.md R7, 20_memory.md R54, 70_reset_and_hazards.md R235: four header bytes are packed first byte highest, and no
other number of bytes can be presented. -/
def Obligations.HeaderBytesPackFirstByteHighest : Prop :=
  (∀ b0 b1 b2 b3 : Byte, ∃ w, packHeader [b0, b1, b2, b3] = .ok w
      ∧ w.toNat = b0.toNat * 2 ^ 24 + b1.toNat * 2 ^ 16 + b2.toNat * 2 ^ 8 + b3.toNat)
    ∧ ∀ bytes : List Byte, bytes.length ≠ Config.hdrBytes → packHeader bytes = .error .headerLength

/-- The words of 95_test_vectors.md V1, V2, V10, V20, V24 and V27, written out from R70 to R74, decode to what they stand
for. -/
def Obligations.WrittenWordsDecode : Prop :=
  decodeRequest 0x0FFFB9000#34 = .decode 0x7FF#11 ⟨0b11, 0b01, 1, 9, 0b00, 0, 0, 0b00, 0b00, 0, 0, 0b00⟩
    ∧ decodeRequest 0x000000000#34 = .decode 0x000#11 ⟨0b00, 0b00, 0, 0, 0b00, 0, 0, 0b00, 0b00, 0, 0, 0b00⟩
    ∧ decodeRequest 0x0FFF38665#34 = .decode 0x7FF#11 ⟨0b10, 0b01, 1, 8, 0b01, 1, 0, 0b01, 0b10, 0, 1, 0b01⟩
    ∧ decodeRequest 0x1001A9000#34 = .resolveBr 0b11 0b01 9
    ∧ decodeRequest 0x200000800#34 = .resolveSr 0b00 0b10
    ∧ decodeRequest 0x3FFFB9000#34 = .op3

/-- 30_encoding.md R70: the host's opcode-table words: an encoded instruction is read back from its 34 bits, and a
number with a bit above the 34 of a request is rejected by name (log 11). -/
def Obligations.TableWordsDecodeAndWideNumbersAreRejected : Prop :=
  (∀ (i : Instr) (nbits : Nat), 34 ≤ nbits → decodeTableWord nbits (encode i).toNat = some i)
    ∧ (∀ w : Nat, w < 2 ^ 34 → ∃ i, decodeNumber w = .ok i ∧ i = decodeRequest (BitVec.ofNat 34 w))
    ∧ ∀ w : Nat, 2 ^ 34 ≤ w → decodeNumber w = .error .requestTooWide

/-! ### One clock edge -/

/-- 10_state.md R24, 30_encoding.md R70: a step whose cycle presents a request is `exec` of the decoded request, with that
cycle consumed; in terms of an instruction, of its encoding on the ports; and a fetch word is run by the very next step
(log 3). -/
def Obligations.StepRunsPresentedRequest : Prop :=
  (∀ (s : State) (c : Cycle) (rest : List Cycle), s.cycles = c :: rest → c.rst = 0 → c.reqValid = 1 →
      step s = exec (decodePort c.reqOp c.reqData) { s with cycles := rest })
    ∧ (∀ (s : State) (i : Instr) (rest : List Cycle), s.cycles = ⟨0, 1, i.op, i.data⟩ :: rest →
        step s = exec i { s with cycles := rest })
    ∧ ∀ (s : State) (i : Instr) (nbits : Nat), 34 ≤ nbits → step (s.withFetchWord nbits (encode i).toNat) = exec i s

/-- 10_state.md R24: the state update of one rising edge, its three branches in their priority: the reset branch in every
legal state, the others in every ready one (before the first reset edge R232 leaves the registers unspecified). -/
def Obligations.EdgeFollowsUpdateRule : Prop :=
  ∀ (s : State) (c : Cycle) (rest : List Cycle), s.TablesLegal → s.cycles = c :: rest →
    (c.rst = 1 →
        step s = .next { s with rspValid := 0, payload := Payload.zero, phase := .afterReset, cycles := rest })
      ∧ (s.phase = .afterReset → c.rst = 0 → c.reqValid = 1 →
          ∃ p, step s = .next { s with rspValid := 1, payload := p, cycles := rest }
            ∧ p = answer s.brRom s.srRom (decodePort c.reqOp c.reqData) ∧ p.rspOp = c.reqOp)
      ∧ (s.phase = .afterReset → c.rst = 0 → c.reqValid = 0 →
          step s = .next { s with rspValid := 0, cycles := rest })

/-- 70_reset_and_hazards.md R230, R231: at an edge with `rst = 1`, whatever the other inputs and the registers hold, the first
reset edge or a later one, every response register becomes 0 and the ROMs are not affected. -/
def Obligations.ResetEdgeClearsEveryRegister : Prop :=
  ∀ (s : State) (c : Cycle) (rest : List Cycle), s.TablesLegal → s.cycles = c :: rest → c.rst = 1 →
    ∃ t, step s = .next t ∧ t.rspValid = 0
      ∧ t.payload = ⟨0, 0, 0, 0, 0, 0, 0, 0, 0, 0, 0, 0, 0, 0, 0, 0, 0, 0, 0⟩
      ∧ t.brRom = s.brRom ∧ t.srRom = s.srRom ∧ t.phase = .afterReset ∧ t.cycles = rest

/-- 10_state.md R26: an idle edge of a ready block writes `rsp_valid <- 0`, leaves every payload field unchanged, and the host
reads no result after it. -/
def Obligations.IdleEdgeHoldsPayload : Prop :=
  ∀ (s : State) (c : Cycle) (rest : List Cycle), s.Ready → s.cycles = c :: rest → c.rst = 0 → c.reqValid = 0 →
    ∃ t, step s = .next t ∧ t.rspValid = 0 ∧ t.payload = s.payload ∧ sample (outputPorts t) = .ok none
      ∧ t.brRom = s.brRom ∧ t.srRom = s.srRom ∧ t.phase = .afterReset ∧ t.cycles = rest

/-- 10_state.md R23, 70_reset_and_hazards.md R231: what reset leaves, read field by field, and the two ROMs at the default
tables (R131, R136). The empty queue of host cycles is the model's choice (log 2), and so is the phase field that records the
reset edge (log 7). -/
def Obligations.ResetStateIsZero : Prop :=
  State.reset.rspValid = 0
    ∧ State.reset.payload = ⟨0, 0, 0, 0, 0, 0, 0, 0, 0, 0, 0, 0, 0, 0, 0, 0, 0, 0, 0⟩
    ∧ (∀ a, brEntry State.reset.brRom a = brDefault a.toNat) ∧ (∀ a, srEntry State.reset.srRom a = srDefault a.toNat)
    ∧ State.reset.phase = .afterReset ∧ State.reset.cycles = []

/-- 70_reset_and_hazards.md R232, R234: whatever the registers hold at power-on, one reset edge, with any other inputs, gives
the reset state; and so it does after any number of edges without reset. -/
def Obligations.PowerOnThenResetIsReset : Prop :=
  (∀ c : Cycle, c.rst = 1 → step { State.powerOn with cycles := [c] } = .next State.reset)
    ∧ ∀ (before : List Cycle) (c : Cycle), (∀ b ∈ before, b.rst = 0) → c.rst = 1 →
        Sys2Proof.core.run (before.length + 1) { State.powerOn with cycles := before ++ [c] } = .next State.reset

/-- 70_reset_and_hazards.md R232, 93_implementation_defined.md "power-on state": at power-on, and after every edge without
reset from then on, whatever it does, the response registers hold values the spec does not give, `rsp_valid` included. That
they are the bits of the free `Config.powerOnBits` at the count of edges is the model's form (log 7). The edge still happens,
and leaves both ROMs as they are. -/
def Obligations.BeforeFirstResetRegistersAreUnspecified : Prop :=
  (State.powerOn.phase = .beforeReset 0 ∧ State.powerOn.rspValid = (Config.powerOnBits 0).extractLsb' 73 1
      ∧ State.powerOn.payload = Payload.ofBits (Config.powerOnBits 0))
    ∧ (∀ (s : State) (n : Nat) (i : Instr), s.TablesLegal → s.phase = .beforeReset n →
        exec i s = .next { s with
          rspValid := (Config.powerOnBits (n + 1)).extractLsb' 73 1
          payload := Payload.ofBits (Config.powerOnBits (n + 1))
          phase := .beforeReset (n + 1) })
    ∧ ∀ (s : State) (n : Nat) (c : Cycle) (rest : List Cycle), s.TablesLegal → s.phase = .beforeReset n →
        s.cycles = c :: rest → c.rst = 0 →
          step s = .next { s with
            rspValid := (Config.powerOnBits (n + 1)).extractLsb' 73 1
            payload := Payload.ofBits (Config.powerOnBits (n + 1))
            phase := .beforeReset (n + 1)
            cycles := rest }

/-- 10_state.md R21: `req_op` and `req_data` do not matter in a cycle with `rst = 1` or `req_valid = 0`, nor `req_valid` in a
cycle with `rst = 1`. -/
def Obligations.UnusedPortsAreIgnored : Prop :=
  ∀ (s : State) (c d : Cycle) (rest : List Cycle),
    (c.rst = 1 ∧ d.rst = 1) ∨ (c.rst = 0 ∧ d.rst = 0 ∧ c.reqValid = 0 ∧ d.reqValid = 0) →
    step { s with cycles := c :: rest } = step { s with cycles := d :: rest }

/-- 41_resolve.md R135, R139: the model refuses a table argument that breaks its rules: no operation and no edge of a state
that holds one happens. That every edge is refused, reset and idle edges too, and that a bad `BR_LUT` is named before a bad
`SR_LUT`, is the model's choice (log 5). A ROM list that is not in the canonical form is no table argument in the model's form
(log 4) and is refused too, whatever it reads as. -/
def Obligations.IllegalTablesStopEveryEdge : Prop :=
  ∀ s : State, ¬ s.TablesLegal →
    ∃ r, (brLegal s.brRom = false → r = Refusal.illegalBrLut)
      ∧ (brLegal s.brRom = true → srLegal s.srRom = false ∧ r = Refusal.illegalSrLut)
      ∧ step s = .refused r ∧ ∀ i, exec i s = .refused r

/-! ### The operations -/

/-- 40_decode.md R100, R101, R103: the whole of DECODE, its example included. It completes in every
ready state for every word, changes nothing but the response, and answers with a zero payload and INVALID_SYNC, or with status
OK, the twelve slices and both resolutions. -/
def Obligations.DecodeAnswers : Prop :=
  ∀ (s : State) (w : HeaderWord), s.Ready →
    ∃ p, exec (decodePort 0b00#2 w) s = .next { s with rspValid := 1, payload := p }
      ∧ (w.extractLsb' 21 11 ≠ 0b111_1111_1111#11 → p = { Payload.zero with rspOp := 0b00, rspStatus := 0b01 })
      ∧ (w.extractLsb' 21 11 = 0b111_1111_1111#11 →
          p.rspOp = 0b00#2 ∧ p.rspStatus = 0b00#2
            ∧ p.fVersion = w.extractLsb' 19 2 ∧ p.fLayer = w.extractLsb' 17 2 ∧ p.fProtection = w.extractLsb' 16 1
            ∧ p.fBrIndex = w.extractLsb' 12 4 ∧ p.fSrIndex = w.extractLsb' 10 2 ∧ p.fPadding = w.extractLsb' 9 1
            ∧ p.fPrivate = w.extractLsb' 8 1 ∧ p.fMode = w.extractLsb' 6 2 ∧ p.fModeExt = w.extractLsb' 4 2
            ∧ p.fCopyright = w.extractLsb' 3 1 ∧ p.fOriginal = w.extractLsb' 2 1 ∧ p.fEmphasis = w.extractLsb' 0 2
            ∧ p.IsBrResult (brEntry s.brRom (brAddr (w.extractLsb' 19 2) (w.extractLsb' 17 2) (w.extractLsb' 12 4)))
            ∧ p.IsSrResult (srEntry s.srRom (srAddr (w.extractLsb' 19 2) (w.extractLsb' 10 2))))
      ∧ (w = 0xFFFB9000#32 → p.fVersion = 0b11#2 ∧ p.fLayer = 0b01#2 ∧ p.fProtection = 1 ∧ p.fBrIndex = 9
          ∧ p.brKind = 0b01#2 ∧ p.brBps = 128000 ∧ p.srKind = 0b01#2 ∧ p.srHz = 44100)

/-- 40_decode.md R102: with a valid sync, every one of the 2^21 remaining words gives status OK. -/
def Obligations.ValidSyncNeverFails : Prop :=
  ∀ (s : State) (x : BitVec 21), s.Ready →
    ∃ t, exec (decodePort 0b00#2 (0b111_1111_1111#11 ++ x)) s = .next t ∧ t.payload.rspStatus = 0b00#2

/-- 30_encoding.md R77: the sync test on the top eleven bits is the test under the mask 0xFFE0_0000, and DECODE's status is OK
exactly when it holds. -/
def Obligations.SyncIsTheMaskedPrefix : Prop :=
  ∀ (s : State) (w : HeaderWord), s.Ready →
    (w.extractLsb' 21 11 = 0b111_1111_1111#11 ↔ w &&& 0xFFE00000#32 = 0xFFE00000#32)
      ∧ ∃ t, exec (decodePort 0b00#2 w) s = .next t
          ∧ (t.payload.rspStatus = 0b00#2 ↔ w &&& 0xFFE00000#32 = 0xFFE00000#32)

/-- 40_decode.md R105: re-encoding the fields of a DECODE response with status OK gives back the request word. -/
def Obligations.ReencodeGivesTheWordBack : Prop :=
  ∀ (s : State) (w : HeaderWord), s.Ready → w.extractLsb' 21 11 = 0b111_1111_1111#11 →
    ∃ t, exec (decodePort 0b00#2 w) s = .next t ∧ t.payload.rspStatus = 0b00#2 ∧ t.payload.reencode = w

/-- 40_decode.md R104: the rates of a DECODE response with status OK are those of RESOLVE.BR and RESOLVE.SR on the same
word. -/
def Obligations.DecodeAgreesWithResolvers : Prop :=
  ∀ (s d b r : State) (w : HeaderWord), s.phase = .afterReset → w.extractLsb' 21 11 = 0b111_1111_1111#11 →
    exec (decodePort 0b00#2 w) s = .next d → exec (decodePort 0b01#2 w) s = .next b →
    exec (decodePort 0b10#2 w) s = .next r →
      d.payload.brKind = b.payload.brKind ∧ d.payload.brRaw = b.payload.brRaw ∧ d.payload.brBps = b.payload.brBps
        ∧ d.payload.srKind = r.payload.srKind ∧ d.payload.srHz = r.payload.srHz

/-- 41_resolve.md R150: the whole of RESOLVE.BR, its corner cases and its example included, for every legal table. -/
def Obligations.ResolveBrAnswers : Prop :=
  ∀ (s : State) (d : HeaderWord), s.Ready →
    ∃ p, exec (decodePort 0b01#2 d) s = .next { s with rspValid := 1, payload := p }
      ∧ p.rspOp = 0b01#2 ∧ p.rspStatus = 0b00#2 ∧ p.NoHeader ∧ p.srKind = 0b00#2 ∧ p.srHz = 0
      ∧ p.IsBrResult (brEntry s.brRom (brAddr (d.extractLsb' 19 2) (d.extractLsb' 17 2) (d.extractLsb' 12 4)))
      ∧ (d.extractLsb' 19 2 = 0b01#2 ∨ d.extractLsb' 17 2 = 0b00#2 → p.brKind = 0b11#2 ∧ p.brRaw = 0xFF#8)
      ∧ (d.extractLsb' 19 2 ≠ 0b01#2 → d.extractLsb' 17 2 ≠ 0b00#2 → d.extractLsb' 12 4 = 0#4 →
          p.brKind = 0b10#2 ∧ p.brRaw = 0x00#8 ∧ p.brBps = 0)
      ∧ (d = 0x001A9000#32 → p.brKind = 0b01#2 ∧ p.brRaw = 16 ∧ p.brBps = 128000)

/-- 41_resolve.md R155: the whole of RESOLVE.SR, its corner cases and its example included, for every legal table. -/
def Obligations.ResolveSrAnswers : Prop :=
  ∀ (s : State) (d : HeaderWord), s.Ready →
    ∃ p, exec (decodePort 0b10#2 d) s = .next { s with rspValid := 1, payload := p }
      ∧ p.rspOp = 0b10#2 ∧ p.rspStatus = 0b00#2 ∧ p.NoHeader ∧ p.brKind = 0b00#2 ∧ p.brRaw = 0 ∧ p.brBps = 0
      ∧ p.IsSrResult (srEntry s.srRom (srAddr (d.extractLsb' 19 2) (d.extractLsb' 10 2)))
      ∧ (d.extractLsb' 10 2 = 0b11#2 ∨ d.extractLsb' 19 2 = 0b01#2 → p.srKind = 0b10#2)
      ∧ (d = 0x00000800#32 → p.srKind = 0b01#2 ∧ p.srHz = 8000)

/-- 43_illegal.md R190 (30_encoding.md R78, 60_exceptions.md R202): OP3 answers ILLEGAL_OP with a zero payload for every
`req_data`, and no other operation code does. -/
def Obligations.ReservedOpIsIllegal : Prop :=
  ∀ (s : State) (d : HeaderWord), s.Ready →
    exec (decodePort 0b11#2 d) s
        = .next { s with rspValid := 1, payload := ⟨0b11, 0b10, 0, 0, 0, 0, 0, 0, 0, 0, 0, 0, 0, 0, 0, 0, 0, 0, 0⟩ }
      ∧ ∀ (op : BitVec 2) (t : State), exec (decodePort op d) s = .next t →
          (t.payload.rspStatus = 0b10#2 ↔ op = 0b11#2)

/-! ### Status, kinds and errors -/

/-- 60_exceptions.md R200: every operation completes in every ready state, with the status its row of the table says; 0b11 is
never produced. -/
def Obligations.StatusOfEveryRequest : Prop :=
  ∀ (s : State) (i : Instr), s.Ready →
    ∃ t, exec i s = .next t
      ∧ (t.payload.rspStatus = 0b00#2 ↔
          (∃ h, i = .decode 0b111_1111_1111#11 h) ∨ (∃ v l j, i = .resolveBr v l j) ∨ ∃ v j, i = .resolveSr v j)
      ∧ (t.payload.rspStatus = 0b01#2 ↔ ∃ sync h, i = .decode sync h ∧ sync ≠ 0b111_1111_1111#11)
      ∧ (t.payload.rspStatus = 0b10#2 ↔ i = .op3)
      ∧ t.payload.rspStatus ≠ 0b11#2

/-- 60_exceptions.md R201: INVALID_SYNC is raised by DECODE, and only by DECODE, when bits 31:21 are not all ones, and the
payload is then zero. -/
def Obligations.InvalidSyncOnlyFromDecode : Prop :=
  ∀ (s t : State) (op : BitVec 2) (w : HeaderWord), s.phase = .afterReset → exec (decodePort op w) s = .next t →
    (t.payload.rspStatus = 0b01#2 ↔ op = 0b00#2 ∧ w.extractLsb' 21 11 ≠ 0b111_1111_1111#11)
      ∧ (t.payload.rspStatus = 0b01#2 → t.payload = { Payload.zero with rspOp := 0b00, rspStatus := 0b01 })

/-- 60_exceptions.md R203: an error leaves every payload field but the status and the operation code 0. -/
def Obligations.ErrorsLeaveAZeroPayload : Prop :=
  ∀ (s t : State) (i : Instr), s.phase = .afterReset → exec i s = .next t → t.payload.rspStatus ≠ 0b00#2 →
    t.payload = { Payload.zero with rspOp := i.op, rspStatus := t.payload.rspStatus } ∧ t.rspValid = 1

/-- 41_resolve.md R146: the sentinels are results, not errors. -/
def Obligations.SentinelsKeepStatusOk : Prop :=
  ∀ (s t : State) (i : Instr), s.phase = .afterReset → exec i s = .next t →
    t.payload.brKind = 0b11#2 ∨ t.payload.brKind = 0b10#2 ∨ t.payload.srKind = 0b10#2 → t.payload.rspStatus = 0b00#2

/-- 10_state.md R28: the bitrate kind of every response, its `br_bps`, and the two query predicates. -/
def Obligations.BitrateKindOfEveryResponse : Prop :=
  ∀ (s t : State) (i : Instr), s.phase = .afterReset → exec i s = .next t →
    (t.payload.brKind = 0b00#2 ↔ t.payload.rspStatus ≠ 0b00#2 ∨ ∃ v j, i = .resolveSr v j)
      ∧ (t.payload.brKind = 0b01#2 → (t.payload.brBps.toNat : Int) = t.payload.brRaw.toInt * 8000)
      ∧ (t.payload.brKind ≠ 0b01#2 → t.payload.brBps = 0)
      ∧ (t.payload.isAny = true ↔ t.payload.brKind = 0b10#2)
      ∧ (t.payload.isInvalid = true ↔ t.payload.brKind = 0b11#2)

/-- 10_state.md R29: the sample-rate kind of every response, its `sr_hz`, and the query predicate; 0b11 is never produced. -/
def Obligations.SampleRateKindOfEveryResponse : Prop :=
  ∀ (s t : State) (i : Instr), s.phase = .afterReset → exec i s = .next t →
    (t.payload.srKind = 0b00#2 ↔ t.payload.rspStatus ≠ 0b00#2 ∨ ∃ v l j, i = .resolveBr v l j)
      ∧ (∀ sync h, i = .decode sync h → t.payload.srKind = 0b01#2 →
          t.payload.srHz = srEntry s.srRom (srAddr h.version h.srIndex))
      ∧ (∀ v j, i = .resolveSr v j → t.payload.srKind = 0b01#2 → t.payload.srHz = srEntry s.srRom (srAddr v j))
      ∧ (t.payload.srKind ≠ 0b01#2 → t.payload.srHz = 0)
      ∧ (t.payload.isReserved = true ↔ t.payload.srKind = 0b10#2)
      ∧ t.payload.srKind ≠ 0b11#2

/-! ### Frames and independence -/

/-- 20_memory.md R50, R57 and 10_state.md R24, R32: no operation and no edge changes an entry of either ROM; a request writes
only the response registers, and marks and labels them once the block has been reset (R232); no operation or edge takes a block
back before its reset; an edge consumes one cycle of the host. -/
def Obligations.OperationsWriteOnlyTheResponse : Prop :=
  (∀ (s t : State) (i : Instr), exec i s = .next t →
      (∀ a, brEntry t.brRom a = brEntry s.brRom a) ∧ (∀ a, srEntry t.srRom a = srEntry s.srRom a)
        ∧ t.brRom = s.brRom ∧ t.srRom = s.srRom ∧ t.cycles = s.cycles
        ∧ (s.phase = .afterReset → t.phase = .afterReset ∧ t.rspValid = 1 ∧ t.payload.rspOp = i.op))
    ∧ ∀ s t : State, step s = .next t →
        (∀ a, brEntry t.brRom a = brEntry s.brRom a) ∧ (∀ a, srEntry t.srRom a = srEntry s.srRom a)
          ∧ t.brRom = s.brRom ∧ t.srRom = s.srRom ∧ t.cycles = s.cycles.tail
          ∧ (s.phase = .afterReset → t.phase = .afterReset)

/-- 10_state.md R25: a response depends on its own request and the two ROMs, and on no earlier request: whatever two blocks
with the same ROMs, both reset at least once (R234), hold in their registers, equal requests get equal payloads. -/
def Obligations.EqualRequestsGetEqualPayloads : Prop :=
  ∀ (s s' t : State) (c : Cycle) (rest rest' : List Cycle), s.brRom = s'.brRom → s.srRom = s'.srRom →
    s.phase = .afterReset → s'.phase = .afterReset → s.cycles = c :: rest → s'.cycles = c :: rest' → c.rst = 0 →
    c.reqValid = 1 → step s = .next t →
      ∃ t', step s' = .next t' ∧ t'.payload = t.payload ∧ t'.rspValid = t.rspValid

/-- 10_state.md R22: each output port is its register, and none is a function of the current inputs. -/
def Obligations.OutputPortsAreTheRegisters : Prop :=
  ∀ (s : State) (inputs : List Cycle),
    (outputPorts s).rspValid = s.rspValid ∧ (outputPorts s).payload = s.payload
      ∧ outputPorts { s with cycles := inputs } = outputPorts s

/-! ### The tables -/

/-- 20_memory.md R51, R52: the ROM addresses as numbers; every address is some lookup's, and the tables have an entry at each
(256 and 16). -/
def Obligations.RomAddresses : Prop :=
  (∀ (v l : BitVec 2) (i : BitVec 4), (brAddr v l i).toNat = 64 * v.toNat + 16 * l.toNat + i.toNat)
    ∧ (∀ a : BitVec 8, ∃ v l i, brAddr v l i = a) ∧ brDefaultTable.length = 256
    ∧ (∀ v i : BitVec 2, (srAddr v i).toNat = 4 * v.toNat + i.toNat)
    ∧ (∀ a : BitVec 4, ∃ v i, srAddr v i = a) ∧ srDefaultTable.length = 16

/-- 41_resolve.md R132, R133, R134: the cells every `BR_LUT` argument keeps, as the block reads them. -/
def Obligations.LegalBrTableKeepsStatedCells : Prop :=
  ∀ (s : State) (v l : BitVec 2) (i : BitVec 4), s.TablesLegal →
    (v = 0b01#2 ∨ l = 0b00#2 → (brEntry s.brRom (brAddr v l i)).toInt = -1)
      ∧ (v ≠ 0b01#2 → l ≠ 0b00#2 → i = 0 → (brEntry s.brRom (brAddr v l i)).toInt = 0)
      ∧ (brEntry s.brRom 0xD9#8).toInt = 16 ∧ (brEntry s.brRom 0xDF#8).toInt = -1
      ∧ -1 ≤ (brEntry s.brRom (brAddr v l i)).toInt

/-- 41_resolve.md R137, R138: the cells every `SR_LUT` argument keeps, as the block reads them. -/
def Obligations.LegalSrTableKeepsStatedCells : Prop :=
  ∀ (s : State) (v i : BitVec 2), s.TablesLegal →
    (v = 0b01#2 ∨ i = 0b11#2 → srEntry s.srRom (srAddr v i) = 0)
      ∧ srEntry s.srRom 0xC#4 = 44100 ∧ srEntry s.srRom 0x2#4 = 8000

/-- 41_resolve.md R135, R139: a table argument is accepted exactly when it keeps the rules, and the block then reads it back
entry by entry; any other argument is refused by name. That building is where it is refused, and that a bad `BR_LUT` is named
first where both are bad, is the model's choice (log 5). -/
def Obligations.BuildAcceptsExactlyLegalTables : Prop :=
  ∀ (br : List (BitVec 8)) (sr : List (BitVec 16)) (s : State),
    (LegalBrArgument br → LegalSrArgument sr →
        ∃ t, buildTables br sr s = .next t ∧ t.TablesLegal
          ∧ (∀ a : BitVec 8, br[a.toNat]? = some (brEntry t.brRom a))
          ∧ (∀ a : BitVec 4, sr[a.toNat]? = some (srEntry t.srRom a))
          ∧ t.rspValid = s.rspValid ∧ t.payload = s.payload ∧ t.phase = s.phase ∧ t.cycles = s.cycles)
      ∧ (¬ LegalBrArgument br → buildTables br sr s = .refused .illegalBrLut)
      ∧ (LegalBrArgument br → ¬ LegalSrArgument sr → buildTables br sr s = .refused .illegalSrLut)

/-- The model's form of a ROM (log 4, a DESIGN CHOICE; 20_memory.md R50 gives the entries and no form): two canonical lists
that read alike at every address are equal, for both ROMs, so equal contents are equal data. -/
def Obligations.CanonicalRomsAreUnique : Prop :=
  (∀ m m' : List Host.Cell, Memory.wf 256 brDefault m = true → Memory.wf 256 brDefault m' = true →
      (∀ a, brEntry m a = brEntry m' a) → m = m')
    ∧ ∀ m m' : List (Nat × BitVec 16), Memory.wf 16 srDefault m = true → Memory.wf 16 srDefault m' = true →
        (∀ a, srEntry m a = srEntry m' a) → m = m'

/-- 41_resolve.md R141: the product is exact for every legal table, at most 1 016 000, below 2^20; with the default table the
products run from 8 000 to 448 000. -/
def Obligations.BitrateProductIsExact : Prop :=
  (∀ (s : State) (v l : BitVec 2) (i : BitVec 4), s.TablesLegal → 1 ≤ (brEntry s.brRom (brAddr v l i)).toInt →
      ((resolveBr s.brRom v l i).bps.toNat : Int) = (brEntry s.brRom (brAddr v l i)).toInt * 8000
        ∧ (resolveBr s.brRom v l i).bps.toNat ≤ 1016000 ∧ (1016000 : Nat) < 2 ^ 20)
    ∧ ∀ (v l : BitVec 2) (i : BitVec 4), (resolveBr State.reset.brRom v l i).kind = 0b01#2 →
        8000 ≤ (resolveBr State.reset.brRom v l i).bps.toNat ∧ (resolveBr State.reset.brRom v l i).bps.toNat ≤ 448000

/-! ### Invariants and runs -/

/-- 10_state.md R28, R29, 60_exceptions.md R200, R203: the invariant holds at reset. -/
def Obligations.ResetMeetsTheInvariant : Prop := State.reset.Inv

/-- The same rules: from every state that meets the invariant, every edge, whatever its inputs, gives a state that meets it;
power-on meets it, before any register is specified (R232); and a reset edge gives, from any legal state, one that meets it and
is ready (R234). -/
def Obligations.EveryEdgeKeepsTheInvariant : Prop :=
  (∀ s t : State, s.Inv → step s = .next t → t.Inv) ∧ State.powerOn.Inv
    ∧ ∀ (s t : State) (c : Cycle) (rest : List Cycle), s.cycles = c :: rest → c.rst = 1 → step s = .next t →
        t.Inv ∧ t.Ready

/-- 20_memory.md R58, 10_state.md R24 to R26, 70_reset_and_hazards.md R236, R239, R240: from every legal state, whatever its
registers hold, that has been reset or whose first cycle resets it (R234), the host reads over its whole queue of cycles
exactly the answers to its own requests, in their order, one per request at the edge that takes it, and nothing in an idle or
reset cycle. -/
def Obligations.ResponsesAreTheAnswersInOrder : Prop :=
  ∀ s : State, s.TablesLegal → (s.phase = .afterReset ∨ ∃ c rest, s.cycles = c :: rest ∧ c.rst = 1) →
    observations s.cycles.length s = s.cycles.map fun c => Except.ok (answerOfCycle s.brRom s.srRom c)

/-- 10_state.md R24 to R26, 20_memory.md R58, 70_reset_and_hazards.md R230, R237, R240: the same for one step, from every ready
state: after the edge the host reads the answer to that cycle's own request, and nothing after an idle or a reset cycle; the
state is ready again, with the ROMs kept and one cycle consumed. -/
def Obligations.StepAnswersItsCycle : Prop :=
  ∀ (s : State) (c : Cycle) (rest : List Cycle), s.Ready → s.cycles = c :: rest →
    ∃ t, step s = .next t ∧ sample (outputPorts t) = .ok (answerOfCycle s.brRom s.srRom c)
      ∧ t.Ready ∧ t.brRom = s.brRom ∧ t.srRom = s.srRom ∧ t.cycles = rest

/-- 70_reset_and_hazards.md R238: a request held for `k` edges is `k` requests with `k` equal responses. -/
def Obligations.HeldRequestIsServedEveryEdge : Prop :=
  ∀ (s : State) (k : Nat) (c : Cycle) (rest : List Cycle), s.Ready →
    s.cycles = List.replicate k c ++ rest → c.rst = 0 → c.reqValid = 1 →
      observations k s
        = List.replicate k (.ok (some (answer s.brRom s.srRom (decodePort c.reqOp c.reqData))))

/-- 60_exceptions.md R206, R213, 93_implementation_defined.md: every run of a ready machine, whatever its registers hold, goes
on for every number of edges, and the host never reads a code that is never produced. Beyond the end of the host's queue the
run rests on the model's choice that the cycles are idle (log 2). -/
def Obligations.EveryRunIsSafe : Prop :=
  ∀ (s : State) (n : Nat), s.Ready → s.SafeFor n

/-- 70_reset_and_hazards.md R240: latency 1: after `RSP_LATENCY` steps the response to a presented request is visible. -/
def Obligations.LatencyIsOneClock : Prop :=
  ∀ (s : State) (i : Instr) (rest : List Cycle), s.Ready → s.cycles = ⟨0, 1, i.op, i.data⟩ :: rest →
    ∃ t : State, Sys2Proof.core.run Config.rspLatency s = .next t
      ∧ sample (outputPorts t) = .ok (some (answer s.brRom s.srRom i)) ∧ t.cycles = rest

/-- 93_implementation_defined.md, 10_state.md R26, R29, 60_exceptions.md R200: what the host reads of any register contents. -/
def Obligations.SampleReadsValidResponsesOnly : Prop :=
  ∀ out : OutputPorts,
    (out.rspValid = 0 → sample out = .ok none)
      ∧ (out.rspValid = 1 → out.payload.rspStatus = 0b11#2 → sample out = .error .statusNeverProduced)
      ∧ (out.rspValid = 1 → out.payload.rspStatus ≠ 0b11#2 → out.payload.srKind = 0b11#2 →
          sample out = .error .srKindNeverProduced)
      ∧ (out.rspValid = 1 → out.payload.rspStatus ≠ 0b11#2 → out.payload.srKind ≠ 0b11#2 →
          sample out = .ok (some out.payload))

/-! ### Names, renderers and the cycle notation -/

/-- 30_encoding.md R76: the names of the enumerated codes. -/
def Obligations.CodeNames : Prop :=
  [0b00#2, 0b01#2, 0b10#2, 0b11#2].map audioVersion = [.mpeg25, .reserved, .mpeg2, .mpeg1]
    ∧ [0b00#2, 0b01#2, 0b10#2, 0b11#2].map layer = [.reserved, .layer3, .layer2, .layer1]
    ∧ [0b00#2, 0b01#2, 0b10#2, 0b11#2].map channelMode = [.stereo, .joint, .dual, .single]
    ∧ [0b00#2, 0b01#2, 0b10#2, 0b11#2].map emphasis = [.none, .ms50_15, .reserved, .ccitJ17]

/-- 42_render.md R171, R172: the version and layer strings. -/
def Obligations.VersionAndLayerStrings : Prop :=
  [0b11#2, 0b10#2, 0b00#2, 0b01#2].map renderVersion = ["1", "2", "2.5", "INVALID"]
    ∧ [0b11#2, 0b10#2, 0b01#2, 0b00#2].map renderLayer = ["1", "2", "3", "INVALID"]

/-- 42_render.md R173, R174: the rate strings: the sentinels' literals, a NONE refused, and for a VALID rate the decimal
digits of the rate, most significant first, with nothing else and no leading zero. -/
def Obligations.RateStrings : Prop :=
  (∀ bps, renderBitrate 0b10#2 bps = .ok "ANY" ∧ renderBitrate 0b11#2 bps = .ok "INVALID"
      ∧ renderBitrate 0b00#2 bps = .error .renderNotHeld ∧ renderBitrate 0b01#2 bps = .ok (decimal bps.toNat))
    ∧ (∀ hz, renderSampleRate 0b10#2 hz = .ok "INVALID" ∧ renderSampleRate 0b00#2 hz = .error .renderNotHeld
        ∧ renderSampleRate 0b01#2 hz = .ok (decimal hz.toNat))
    ∧ ∀ n : Nat, ∃ ds : List Nat, decimal n = String.ofList (ds.map fun d => Char.ofNat (48 + d))
        ∧ (∀ d ∈ ds, d < 10) ∧ ds.foldl (fun acc d => 10 * acc + d) 0 = n ∧ (0 < n → ds.head? ≠ some 0)

/-- 42_render.md R170, R175: a string is given only of a response with `rsp_valid = 1` and status OK that holds the field,
and of no field but version, layer, bitrate and sample rate. Which responses hold the version and the layer is the model's
reading (log 14). -/
def Obligations.RenderersAnswerOnlyWhatIsHeld : Prop :=
  ∀ (item : RenderItem) (out : OutputPorts) (text : String), render item out = .text text →
    out.rspValid = 1 ∧ out.payload.rspStatus = 0b00#2
      ∧ ((item = .version ∧ out.payload.rspOp = 0b00#2 ∧ text = renderVersion out.payload.fVersion)
        ∨ (item = .layer ∧ out.payload.rspOp = 0b00#2 ∧ text = renderLayer out.payload.fLayer)
        ∨ (item = .bitrate ∧ out.payload.brKind ≠ 0b00#2
            ∧ renderBitrate out.payload.brKind out.payload.brBps = .ok text)
        ∨ (item = .sampleRate ∧ out.payload.srKind ≠ 0b00#2
            ∧ renderSampleRate out.payload.srKind out.payload.srHz = .ok text))

/-- 42_render.md R170 to R174: every response with status OK renders each of the four fields it holds. -/
def Obligations.RenderersAnswerWhatIsHeld : Prop :=
  ∀ (s t : State) (i : Instr), s.phase = .afterReset → exec i s = .next t → t.payload.rspStatus = 0b00#2 →
    (∀ sync h, i = .decode sync h →
        render .version (outputPorts t) = .text (renderVersion h.version)
          ∧ render .layer (outputPorts t) = .text (renderLayer h.layer))
      ∧ ((∀ v j, i ≠ .resolveSr v j) → ∃ text, render .bitrate (outputPorts t) = .text text)
      ∧ ((∀ v l j, i ≠ .resolveBr v l j) → ∃ text, render .sampleRate (outputPorts t) = .text text)

/-- 30_encoding.md R82: the six lines of the cycle notation. -/
def Obligations.LinesStandForCycles : Prop :=
  (∀ w : HeaderWord,
      assemble (.decode w) = .ok ⟨0, 1, 0b00, w⟩ ∧ assemble (.resolveBr w) = .ok ⟨0, 1, 0b01, w⟩
        ∧ assemble (.resolveSr w) = .ok ⟨0, 1, 0b10, w⟩ ∧ assemble (.op3 w) = .ok ⟨0, 1, 0b11, w⟩)
    ∧ (∃ c, assemble .idle = .ok c ∧ c.rst = 0 ∧ c.reqValid = 0)
    ∧ ∃ c, assemble .reset = .ok c ∧ c.rst = 1

/-- 30_encoding.md R83: each pseudo-instruction presents the request of its operands, DECODE.F with a valid sync, and an
operand too wide for its field is refused. -/
def Obligations.PseudoInstructionsAssemble : Prop :=
  (∀ (v l : BitVec 2) (i : BitVec 4), ∃ d, assemble (.resolveBrFields v.toNat l.toNat i.toNat) = .ok ⟨0, 1, 0b01, d⟩
      ∧ d = (Instr.resolveBr v l i).data ∧ decodePort 0b01#2 d = .resolveBr v l i)
    ∧ (∀ v i : BitVec 2, ∃ d, assemble (.resolveSrFields v.toNat i.toNat) = .ok ⟨0, 1, 0b10, d⟩
        ∧ d = (Instr.resolveSr v i).data ∧ decodePort 0b10#2 d = .resolveSr v i)
    ∧ (∀ h : Header, ∃ w,
        assemble (.decodeFields h.version.toNat h.layer.toNat h.protection.toNat h.brIndex.toNat h.srIndex.toNat
            h.padding.toNat h.privateFlag.toNat h.mode.toNat h.modeExt.toNat h.copyright.toNat h.original.toNat
            h.emphasis.toNat) = .ok ⟨0, 1, 0b00, w⟩
          ∧ w = h.toWord 0b111_1111_1111#11 ∧ decodePort 0b00#2 w = .decode 0b111_1111_1111#11 h)
    ∧ (∀ v l i : Nat, 4 ≤ v ∨ 4 ≤ l ∨ 16 ≤ i → assemble (.resolveBrFields v l i) = .error .operandTooWide)
    ∧ (∀ v i : Nat, 4 ≤ v ∨ 4 ≤ i → assemble (.resolveSrFields v i) = .error .operandTooWide)
    ∧ (∀ v l p bri sri pad prv m x c o e : Nat,
        4 ≤ v ∨ 4 ≤ l ∨ 2 ≤ p ∨ 16 ≤ bri ∨ 4 ≤ sri ∨ 2 ≤ pad ∨ 2 ≤ prv ∨ 4 ≤ m ∨ 4 ≤ x ∨ 2 ≤ c ∨ 2 ≤ o ∨ 4 ≤ e →
        assemble (.decodeFields v l p bri sri pad prv m x c o e) = .error .operandTooWide)
    ∧ assemble (.resolveBrFields 3 1 9) = assemble (.resolveBr 0x001A9000#32)
end

