-- ==== Sys2Proof/Laws/Decode.lean ====
section
/-! SUPPORT. The decoder and the encoder as numbers: what each concatenation and each slice is worth, so that a claim about
bits becomes linear arithmetic. -/

namespace Sys2Proof

/-- A concatenation as a number. -/
theorem toNat_append_eq {n m : Nat} (x : BitVec n) (y : BitVec m) : (x ++ y).toNat = x.toNat * 2 ^ m + y.toNat := by
  rw [BitVec.toNat_append, Nat.shiftLeft_eq, Nat.mul_comm]
  exact (Nat.two_pow_add_eq_or_of_lt y.isLt _).symm

/-- A slice as a number. -/
theorem toNat_slice {n : Nat} (x : BitVec n) (lo len : Nat) : (x.extractLsb' lo len).toNat = x.toNat / 2 ^ lo % 2 ^ len := by
  rw [BitVec.extractLsb'_toNat, Nat.shiftRight_eq_div_pow]

/-- A slice above the low part of a concatenation is a slice of the high part. -/
theorem slice_append_high {n m : Nat} (x : BitVec n) (y : BitVec m) (lo len : Nat) (h : m ≤ lo) :
    (x ++ y).extractLsb' lo len = x.extractLsb' (lo - m) len := BitVec.extractLsb'_append_eq_of_le h

/-- The low part of a concatenation is its lowest slice. -/
theorem slice_append_low {n m : Nat} (x : BitVec n) (y : BitVec m) : (x ++ y).extractLsb' 0 m = y := by
  rw [BitVec.extractLsb'_append_eq_of_add_le (by omega)]
  simp

/-- The header word as a number: each field at its position (R74). -/
theorem Header.toWord_toNat (sync : BitVec 11) (h : Header) :
    (h.toWord sync).toNat =
      sync.toNat * 2 ^ 21 + h.version.toNat * 2 ^ 19 + h.layer.toNat * 2 ^ 17 + h.protection.toNat * 2 ^ 16
        + h.brIndex.toNat * 2 ^ 12 + h.srIndex.toNat * 2 ^ 10 + h.padding.toNat * 2 ^ 9 + h.privateFlag.toNat * 2 ^ 8
        + h.mode.toNat * 2 ^ 6 + h.modeExt.toNat * 2 ^ 4 + h.copyright.toNat * 2 ^ 3 + h.original.toNat * 2 ^ 2
        + h.emphasis.toNat := by
  refine (toNat_append_eq _ h.emphasis).trans ?_
  simp only [toNat_append_eq]
  omega

/-- RESOLVE.BR's data word as a number (R73). -/
theorem Instr.resolveBr_data_toNat (v l : BitVec 2) (i : BitVec 4) :
    (Instr.resolveBr v l i).data.toNat = v.toNat * 2 ^ 19 + l.toNat * 2 ^ 17 + i.toNat * 2 ^ 12 := by
  refine (toNat_append_eq _ 0#12).trans ?_
  simp only [toNat_append_eq, BitVec.toNat_ofNat]
  omega

/-- RESOLVE.SR's data word as a number (R73). -/
theorem Instr.resolveSr_data_toNat (v i : BitVec 2) :
    (Instr.resolveSr v i).data.toNat = v.toNat * 2 ^ 19 + i.toNat * 2 ^ 10 := by
  refine (toNat_append_eq _ 0#10).trans ?_
  simp only [toNat_append_eq, BitVec.toNat_ofNat]
  omega

/-- The request as a number: the operation code above the data word (R70). -/
theorem encode_toNat (i : Instr) : (encode i).toNat = i.op.toNat * 2 ^ 32 + i.data.toNat := toNat_append_eq i.op i.data

/-- A request decodes by its two ports (R70). -/
theorem decodeRequest_append (op : BitVec 2) (data : HeaderWord) : decodeRequest (op ++ data) = decodePort op data := by
  have hn : BitVec.toNat (w := 34) (op ++ data) = op.toNat * 2 ^ 32 + data.toNat := toNat_append_eq op data
  have hd := data.isLt
  have ho := op.isLt
  unfold decodeRequest
  congr 1
  · apply BitVec.eq_of_toNat_eq
    rw [toNat_slice, hn]
    omega
  · apply BitVec.eq_of_toNat_eq
    rw [toNat_slice, hn]
    omega

@[simp] theorem decodePort_decode (data : HeaderWord) :
    decodePort 0b00#2 data = .decode (data.extractLsb' 21 11) (Header.ofWord data) := rfl

@[simp] theorem decodePort_resolveBr (data : HeaderWord) :
    decodePort 0b01#2 data = .resolveBr (data.extractLsb' 19 2) (data.extractLsb' 17 2) (data.extractLsb' 12 4) := rfl

@[simp] theorem decodePort_resolveSr (data : HeaderWord) :
    decodePort 0b10#2 data = .resolveSr (data.extractLsb' 19 2) (data.extractLsb' 10 2) := rfl

@[simp] theorem decodePort_op3 (data : HeaderWord) : decodePort 0b11#2 data = .op3 := rfl

/-- An operation code is one of the four (R71). -/
theorem op_cases (op : BitVec 2) : op = 0b00#2 ∨ op = 0b01#2 ∨ op = 0b10#2 ∨ op = 0b11#2 := by
  revert op
  decide

/-- A decoded request has the operation code of its port (R71). -/
@[simp] theorem decodePort_op (op : BitVec 2) (data : HeaderWord) : (decodePort op data).op = op := by
  rcases op_cases op with rfl | rfl | rfl | rfl <;> rfl

/-- The fields of a header word as numbers (R75). -/
theorem Header.ofWord_toNat (w : HeaderWord) :
    (Header.ofWord w).version.toNat = w.toNat / 2 ^ 19 % 2 ^ 2
      ∧ (Header.ofWord w).layer.toNat = w.toNat / 2 ^ 17 % 2 ^ 2
      ∧ (Header.ofWord w).protection.toNat = w.toNat / 2 ^ 16 % 2 ^ 1
      ∧ (Header.ofWord w).brIndex.toNat = w.toNat / 2 ^ 12 % 2 ^ 4
      ∧ (Header.ofWord w).srIndex.toNat = w.toNat / 2 ^ 10 % 2 ^ 2
      ∧ (Header.ofWord w).padding.toNat = w.toNat / 2 ^ 9 % 2 ^ 1
      ∧ (Header.ofWord w).privateFlag.toNat = w.toNat / 2 ^ 8 % 2 ^ 1
      ∧ (Header.ofWord w).mode.toNat = w.toNat / 2 ^ 6 % 2 ^ 2
      ∧ (Header.ofWord w).modeExt.toNat = w.toNat / 2 ^ 4 % 2 ^ 2
      ∧ (Header.ofWord w).copyright.toNat = w.toNat / 2 ^ 3 % 2 ^ 1
      ∧ (Header.ofWord w).original.toNat = w.toNat / 2 ^ 2 % 2 ^ 1
      ∧ (Header.ofWord w).emphasis.toNat = w.toNat / 2 ^ 0 % 2 ^ 2 := by
  simp only [Header.ofWord, toNat_slice, and_self]

end Sys2Proof
end

