-- ==== Sys2Proof/Laws/Memory.lean ====
section
/-! SUPPORT. The ROMs: the default tables are legal, building a table argument gives the canonical form and reads back, and
a legal ROM holds legal cells at every address (spec/41_resolve.md R131 to R139). -/

namespace Sys2Proof.Machine

@[simp] theorem romRead_nil {w : Nat} (u : Nat → BitVec w) (a : Nat) : romRead u [] a = u a := rfl

theorem romRead_cons {w : Nat} (u : Nat → BitVec w) (b : Nat) (x : BitVec w) (m : List (Nat × BitVec w)) (a : Nat) :
    romRead u ((b, x) :: m) a = if a = b then x else romRead u m a := rfl

/-- An address below every listed one reads as unlisted. -/
theorem romRead_of_lt {w : Nat} (u : Nat → BitVec w) (m : List (Nat × BitVec w)) (a : Nat)
    (h : m.all (fun c => decide (a < c.1)) = true) : romRead u m a = u a := by
  induction m with
  | nil => rfl
  | cons c m ih =>
    obtain ⟨b, x⟩ := c
    simp only [List.all_cons, Bool.and_eq_true, decide_eq_true_eq] at h
    rw [romRead_cons, if_neg (by omega), ih h.2]

theorem Memory.wf_nil {w : Nat} (n : Nat) (u : Nat → BitVec w) : Memory.wf n u [] = true := rfl

theorem Memory.wf_cons {w : Nat} (n : Nat) (u : Nat → BitVec w) (a : Nat) (x : BitVec w) (m : List (Nat × BitVec w)) :
    Memory.wf n u ((a, x) :: m) = true
      ↔ a < n ∧ x ≠ u a ∧ (m.all (fun c => decide (a < c.1)) = true) ∧ Memory.wf n u m = true := by
  simp [Memory.wf, and_assoc]

/-- The addresses of a built table start at the first one. -/
theorem Memory.ofTable_ge {w : Nat} (u : Nat → BitVec w) (l : List (BitVec w)) (a b : Nat) (h : b < a) :
    (Memory.ofTable u a l).all (fun c => decide (b < c.1)) = true := by
  induction l generalizing a with
  | nil => rfl
  | cons x l ih =>
    unfold Memory.ofTable
    split
    · exact ih (a + 1) (by omega)
    · simp only [List.all_cons, Bool.and_eq_true, decide_eq_true_eq]
      exact ⟨h, ih (a + 1) (by omega)⟩

/-- Building a table argument gives the canonical form: the one memory operation keeps it. -/
theorem Memory.wf_ofTable {w : Nat} (u : Nat → BitVec w) (n : Nat) (l : List (BitVec w)) (a : Nat)
    (h : a + l.length ≤ n) : Memory.wf n u (Memory.ofTable u a l) = true := by
  induction l generalizing a with
  | nil => rfl
  | cons x l ih =>
    simp only [List.length_cons] at h
    unfold Memory.ofTable
    split
    · exact ih (a + 1) (by omega)
    · rename_i hx
      exact (Memory.wf_cons ..).mpr ⟨by omega, hx, Memory.ofTable_ge u l (a + 1) a (by omega), ih (a + 1) (by omega)⟩

/-- A built table reads back as the argument. -/
theorem romRead_ofTable {w : Nat} (u : Nat → BitVec w) (l : List (BitVec w)) (a k : Nat) (h : k < l.length) :
    romRead u (Memory.ofTable u a l) (a + k) = l[k] := by
  induction l generalizing a k with
  | nil => simp at h
  | cons x l ih =>
    unfold Memory.ofTable
    cases k with
    | zero =>
      split
      · rename_i hx
        simpa [hx] using romRead_of_lt u _ a (Memory.ofTable_ge u l (a + 1) a (by omega))
      · simp [romRead_cons]
    | succ k =>
      have hk : k < l.length := by simpa using h
      have e : a + (k + 1) = a + 1 + k := by omega
      split
      · rw [e, ih (a + 1) k hk, List.getElem_cons_succ]
      · rw [romRead_cons, if_neg (by omega), e, ih (a + 1) k hk, List.getElem_cons_succ]

/-- Any property of every listed cell and of every unlisted reading holds of every reading. -/
theorem romRead_all {w : Nat} (u : Nat → BitVec w) (ok : Nat → BitVec w → Bool) (m : List (Nat × BitVec w)) (a : Nat)
    (hm : m.all (fun c => ok c.1 c.2) = true) (hu : ok a (u a) = true) : ok a (romRead u m a) = true := by
  induction m with
  | nil => exact hu
  | cons c m ih =>
    obtain ⟨b, x⟩ := c
    simp only [List.all_cons, Bool.and_eq_true] at hm
    rw [romRead_cons]
    split
    · rename_i e; subst e; exact hm.1
    · exact ih hm.2

theorem brDefaultTable_length : brDefaultTable.length = 256 := by decide +kernel

theorem srDefaultTable_length : srDefaultTable.length = 16 := rfl

/-- The default `BR_LUT` is a legal argument (R131 to R135). -/
theorem brDefault_ok (a : BitVec 8) : brCellOk a.toNat (brDefault a.toNat) = true := by
  have h : ∀ k : Fin 256, brCellOk k.val (brDefault k.val) = true := by decide +kernel
  exact h ⟨a.toNat, a.isLt⟩

/-- The default `SR_LUT` is a legal argument (R136 to R139). -/
theorem srDefault_ok (a : BitVec 4) : srCellOk a.toNat (srDefault a.toNat) = true := by
  have h : ∀ k : Fin 16, srCellOk k.val (srDefault k.val) = true := by decide +kernel
  exact h ⟨a.toNat, a.isLt⟩

/-- Every entry of a legal `BR_ROM` is what R132 to R135 allow at its address. -/
theorem brCellOk_of_legal {rom : List Host.Cell} (h : brLegal rom = true) (a : BitVec 8) :
    brCellOk a.toNat (brEntry rom a) = true := by
  simp only [brLegal, Bool.and_eq_true] at h
  exact romRead_all brDefault brCellOk rom a.toNat h.2 (brDefault_ok a)

/-- Every entry of a legal `SR_ROM` is what R137 to R139 allow at its address. -/
theorem srCellOk_of_legal {rom : List (Nat × BitVec 16)} (h : srLegal rom = true) (a : BitVec 4) :
    srCellOk a.toNat (srEntry rom a) = true := by
  simp only [srLegal, Bool.and_eq_true] at h
  exact romRead_all srDefault srCellOk rom a.toNat h.2 (srDefault_ok a)

/-- What a legal `BR_ROM` cell may hold, as facts about its value (R132 to R135). -/
theorem brCellOk_iff (a : Nat) (e : BitVec 8) :
    brCellOk a e = true ↔
      -1 ≤ e.toInt
        ∧ ((a / 64 = 1 ∨ a / 16 % 4 = 0) → e.toInt = -1)
        ∧ (¬(a / 64 = 1 ∨ a / 16 % 4 = 0) → a % 16 = 0 → e.toInt = 0)
        ∧ (a = 0xD9 → e.toInt = 16) ∧ (a = 0xDF → e.toInt = -1) := by
  simp only [brCellOk, brReserved, Bool.and_eq_true, Bool.or_eq_true, Bool.not_eq_true', decide_eq_true_eq, beq_iff_eq,
    bne_iff_ne, ne_eq, Bool.or_eq_false_iff, beq_eq_false_iff_ne]
  tauto

/-- What a legal `SR_ROM` cell may hold, as facts about its value (R137 to R139). -/
theorem srCellOk_iff (a : Nat) (e : BitVec 16) :
    srCellOk a e = true ↔
      ((a / 4 = 1 ∨ a % 4 = 3) → e = 0) ∧ (a = 0xC → e.toNat = 44100) ∧ (a = 0x2 → e.toNat = 8000) := by
  simp only [srCellOk, Bool.and_eq_true, Bool.or_eq_true, Bool.not_eq_true', decide_eq_true_eq, bne_iff_ne,
    ne_eq, Bool.or_eq_false_iff, beq_eq_false_iff_ne]
  tauto

/-- Reset lists nothing in either ROM, which is canonical and legal. -/
theorem reset_tablesLegal : State.reset.TablesLegal := by decide

end Sys2Proof.Machine
end

