-- ==== Sys2Proof/Laws/State.lean ====
section
/-! SUPPORT. What each record update of the state and of the payload leaves in each field, true by rfl. -/

namespace Sys2Proof.Machine

@[simp] theorem State.withResponse_rspValid (s : State) (v : BitVec 1) (p : Payload) :
    (s.withResponse v p).rspValid = v := rfl
@[simp] theorem State.withResponse_payload (s : State) (v : BitVec 1) (p : Payload) :
    (s.withResponse v p).payload = p := rfl
@[simp] theorem State.withResponse_brRom (s : State) (v : BitVec 1) (p : Payload) :
    (s.withResponse v p).brRom = s.brRom := rfl
@[simp] theorem State.withResponse_srRom (s : State) (v : BitVec 1) (p : Payload) :
    (s.withResponse v p).srRom = s.srRom := rfl
@[simp] theorem State.withResponse_cycles (s : State) (v : BitVec 1) (p : Payload) :
    (s.withResponse v p).cycles = s.cycles := rfl
@[simp] theorem State.withResponse_phase (s : State) (v : BitVec 1) (p : Payload) :
    (s.withResponse v p).phase = s.phase := rfl
@[simp] theorem State.withPhase_rspValid (s : State) (ph : Phase) : (s.withPhase ph).rspValid = s.rspValid := rfl
@[simp] theorem State.withPhase_payload (s : State) (ph : Phase) : (s.withPhase ph).payload = s.payload := rfl
@[simp] theorem State.withPhase_brRom (s : State) (ph : Phase) : (s.withPhase ph).brRom = s.brRom := rfl
@[simp] theorem State.withPhase_srRom (s : State) (ph : Phase) : (s.withPhase ph).srRom = s.srRom := rfl
@[simp] theorem State.withPhase_phase (s : State) (ph : Phase) : (s.withPhase ph).phase = ph := rfl
@[simp] theorem State.withPhase_cycles (s : State) (ph : Phase) : (s.withPhase ph).cycles = s.cycles := rfl
@[simp] theorem State.withUnspecified_rspValid (s : State) (n : Nat) :
    (s.withUnspecified n).rspValid = (Config.powerOnBits n).extractLsb' 73 1 := rfl
@[simp] theorem State.withUnspecified_payload (s : State) (n : Nat) :
    (s.withUnspecified n).payload = Payload.ofBits (Config.powerOnBits n) := rfl
@[simp] theorem State.withUnspecified_brRom (s : State) (n : Nat) : (s.withUnspecified n).brRom = s.brRom := rfl
@[simp] theorem State.withUnspecified_srRom (s : State) (n : Nat) : (s.withUnspecified n).srRom = s.srRom := rfl
@[simp] theorem State.withUnspecified_phase (s : State) (n : Nat) : (s.withUnspecified n).phase = .beforeReset n := rfl
@[simp] theorem State.withUnspecified_cycles (s : State) (n : Nat) : (s.withUnspecified n).cycles = s.cycles := rfl
@[simp] theorem State.withCycles_phase (s : State) (cs : List Cycle) : (s.withCycles cs).phase = s.phase := rfl
@[simp] theorem State.withCycles_rspValid (s : State) (cs : List Cycle) : (s.withCycles cs).rspValid = s.rspValid := rfl
@[simp] theorem State.withCycles_payload (s : State) (cs : List Cycle) : (s.withCycles cs).payload = s.payload := rfl
@[simp] theorem State.withCycles_brRom (s : State) (cs : List Cycle) : (s.withCycles cs).brRom = s.brRom := rfl
@[simp] theorem State.withCycles_srRom (s : State) (cs : List Cycle) : (s.withCycles cs).srRom = s.srRom := rfl
@[simp] theorem State.withCycles_cycles (s : State) (cs : List Cycle) : (s.withCycles cs).cycles = cs := rfl

@[simp] theorem Payload.withOp_rspOp (p : Payload) (op : BitVec 2) : (p.withOp op).rspOp = op := rfl
@[simp] theorem Payload.withOp_rspStatus (p : Payload) (op : BitVec 2) : (p.withOp op).rspStatus = p.rspStatus := rfl
@[simp] theorem Payload.withOp_fVersion (p : Payload) (op : BitVec 2) : (p.withOp op).fVersion = p.fVersion := rfl
@[simp] theorem Payload.withOp_fLayer (p : Payload) (op : BitVec 2) : (p.withOp op).fLayer = p.fLayer := rfl
@[simp] theorem Payload.withOp_fProtection (p : Payload) (op : BitVec 2) : (p.withOp op).fProtection = p.fProtection := rfl
@[simp] theorem Payload.withOp_fBrIndex (p : Payload) (op : BitVec 2) : (p.withOp op).fBrIndex = p.fBrIndex := rfl
@[simp] theorem Payload.withOp_fSrIndex (p : Payload) (op : BitVec 2) : (p.withOp op).fSrIndex = p.fSrIndex := rfl
@[simp] theorem Payload.withOp_fPadding (p : Payload) (op : BitVec 2) : (p.withOp op).fPadding = p.fPadding := rfl
@[simp] theorem Payload.withOp_fPrivate (p : Payload) (op : BitVec 2) : (p.withOp op).fPrivate = p.fPrivate := rfl
@[simp] theorem Payload.withOp_fMode (p : Payload) (op : BitVec 2) : (p.withOp op).fMode = p.fMode := rfl
@[simp] theorem Payload.withOp_fModeExt (p : Payload) (op : BitVec 2) : (p.withOp op).fModeExt = p.fModeExt := rfl
@[simp] theorem Payload.withOp_fCopyright (p : Payload) (op : BitVec 2) : (p.withOp op).fCopyright = p.fCopyright := rfl
@[simp] theorem Payload.withOp_fOriginal (p : Payload) (op : BitVec 2) : (p.withOp op).fOriginal = p.fOriginal := rfl
@[simp] theorem Payload.withOp_fEmphasis (p : Payload) (op : BitVec 2) : (p.withOp op).fEmphasis = p.fEmphasis := rfl
@[simp] theorem Payload.withOp_brKind (p : Payload) (op : BitVec 2) : (p.withOp op).brKind = p.brKind := rfl
@[simp] theorem Payload.withOp_brRaw (p : Payload) (op : BitVec 2) : (p.withOp op).brRaw = p.brRaw := rfl
@[simp] theorem Payload.withOp_brBps (p : Payload) (op : BitVec 2) : (p.withOp op).brBps = p.brBps := rfl
@[simp] theorem Payload.withOp_srKind (p : Payload) (op : BitVec 2) : (p.withOp op).srKind = p.srKind := rfl
@[simp] theorem Payload.withOp_srHz (p : Payload) (op : BitVec 2) : (p.withOp op).srHz = p.srHz := rfl

@[simp] theorem Payload.withStatus_rspOp (p : Payload) (st : BitVec 2) : (p.withStatus st).rspOp = p.rspOp := rfl
@[simp] theorem Payload.withStatus_rspStatus (p : Payload) (st : BitVec 2) : (p.withStatus st).rspStatus = st := rfl
@[simp] theorem Payload.withStatus_fVersion (p : Payload) (st : BitVec 2) : (p.withStatus st).fVersion = p.fVersion := rfl
@[simp] theorem Payload.withStatus_fLayer (p : Payload) (st : BitVec 2) : (p.withStatus st).fLayer = p.fLayer := rfl
@[simp] theorem Payload.withStatus_fProtection (p : Payload) (st : BitVec 2) : (p.withStatus st).fProtection = p.fProtection := rfl
@[simp] theorem Payload.withStatus_fBrIndex (p : Payload) (st : BitVec 2) : (p.withStatus st).fBrIndex = p.fBrIndex := rfl
@[simp] theorem Payload.withStatus_fSrIndex (p : Payload) (st : BitVec 2) : (p.withStatus st).fSrIndex = p.fSrIndex := rfl
@[simp] theorem Payload.withStatus_fPadding (p : Payload) (st : BitVec 2) : (p.withStatus st).fPadding = p.fPadding := rfl
@[simp] theorem Payload.withStatus_fPrivate (p : Payload) (st : BitVec 2) : (p.withStatus st).fPrivate = p.fPrivate := rfl
@[simp] theorem Payload.withStatus_fMode (p : Payload) (st : BitVec 2) : (p.withStatus st).fMode = p.fMode := rfl
@[simp] theorem Payload.withStatus_fModeExt (p : Payload) (st : BitVec 2) : (p.withStatus st).fModeExt = p.fModeExt := rfl
@[simp] theorem Payload.withStatus_fCopyright (p : Payload) (st : BitVec 2) : (p.withStatus st).fCopyright = p.fCopyright := rfl
@[simp] theorem Payload.withStatus_fOriginal (p : Payload) (st : BitVec 2) : (p.withStatus st).fOriginal = p.fOriginal := rfl
@[simp] theorem Payload.withStatus_fEmphasis (p : Payload) (st : BitVec 2) : (p.withStatus st).fEmphasis = p.fEmphasis := rfl
@[simp] theorem Payload.withStatus_brKind (p : Payload) (st : BitVec 2) : (p.withStatus st).brKind = p.brKind := rfl
@[simp] theorem Payload.withStatus_brRaw (p : Payload) (st : BitVec 2) : (p.withStatus st).brRaw = p.brRaw := rfl
@[simp] theorem Payload.withStatus_brBps (p : Payload) (st : BitVec 2) : (p.withStatus st).brBps = p.brBps := rfl
@[simp] theorem Payload.withStatus_srKind (p : Payload) (st : BitVec 2) : (p.withStatus st).srKind = p.srKind := rfl
@[simp] theorem Payload.withStatus_srHz (p : Payload) (st : BitVec 2) : (p.withStatus st).srHz = p.srHz := rfl

@[simp] theorem Payload.withHeader_rspOp (p : Payload) (h : Header) : (p.withHeader h).rspOp = p.rspOp := rfl
@[simp] theorem Payload.withHeader_rspStatus (p : Payload) (h : Header) : (p.withHeader h).rspStatus = p.rspStatus := rfl
@[simp] theorem Payload.withHeader_fVersion (p : Payload) (h : Header) : (p.withHeader h).fVersion = h.version := rfl
@[simp] theorem Payload.withHeader_fLayer (p : Payload) (h : Header) : (p.withHeader h).fLayer = h.layer := rfl
@[simp] theorem Payload.withHeader_fProtection (p : Payload) (h : Header) : (p.withHeader h).fProtection = h.protection := rfl
@[simp] theorem Payload.withHeader_fBrIndex (p : Payload) (h : Header) : (p.withHeader h).fBrIndex = h.brIndex := rfl
@[simp] theorem Payload.withHeader_fSrIndex (p : Payload) (h : Header) : (p.withHeader h).fSrIndex = h.srIndex := rfl
@[simp] theorem Payload.withHeader_fPadding (p : Payload) (h : Header) : (p.withHeader h).fPadding = h.padding := rfl
@[simp] theorem Payload.withHeader_fPrivate (p : Payload) (h : Header) : (p.withHeader h).fPrivate = h.privateFlag := rfl
@[simp] theorem Payload.withHeader_fMode (p : Payload) (h : Header) : (p.withHeader h).fMode = h.mode := rfl
@[simp] theorem Payload.withHeader_fModeExt (p : Payload) (h : Header) : (p.withHeader h).fModeExt = h.modeExt := rfl
@[simp] theorem Payload.withHeader_fCopyright (p : Payload) (h : Header) : (p.withHeader h).fCopyright = h.copyright := rfl
@[simp] theorem Payload.withHeader_fOriginal (p : Payload) (h : Header) : (p.withHeader h).fOriginal = h.original := rfl
@[simp] theorem Payload.withHeader_fEmphasis (p : Payload) (h : Header) : (p.withHeader h).fEmphasis = h.emphasis := rfl
@[simp] theorem Payload.withHeader_brKind (p : Payload) (h : Header) : (p.withHeader h).brKind = p.brKind := rfl
@[simp] theorem Payload.withHeader_brRaw (p : Payload) (h : Header) : (p.withHeader h).brRaw = p.brRaw := rfl
@[simp] theorem Payload.withHeader_brBps (p : Payload) (h : Header) : (p.withHeader h).brBps = p.brBps := rfl
@[simp] theorem Payload.withHeader_srKind (p : Payload) (h : Header) : (p.withHeader h).srKind = p.srKind := rfl
@[simp] theorem Payload.withHeader_srHz (p : Payload) (h : Header) : (p.withHeader h).srHz = p.srHz := rfl

@[simp] theorem Payload.withBr_rspOp (p : Payload) (b : BrResult) : (p.withBr b).rspOp = p.rspOp := rfl
@[simp] theorem Payload.withBr_rspStatus (p : Payload) (b : BrResult) : (p.withBr b).rspStatus = p.rspStatus := rfl
@[simp] theorem Payload.withBr_fVersion (p : Payload) (b : BrResult) : (p.withBr b).fVersion = p.fVersion := rfl
@[simp] theorem Payload.withBr_fLayer (p : Payload) (b : BrResult) : (p.withBr b).fLayer = p.fLayer := rfl
@[simp] theorem Payload.withBr_fProtection (p : Payload) (b : BrResult) : (p.withBr b).fProtection = p.fProtection := rfl
@[simp] theorem Payload.withBr_fBrIndex (p : Payload) (b : BrResult) : (p.withBr b).fBrIndex = p.fBrIndex := rfl
@[simp] theorem Payload.withBr_fSrIndex (p : Payload) (b : BrResult) : (p.withBr b).fSrIndex = p.fSrIndex := rfl
@[simp] theorem Payload.withBr_fPadding (p : Payload) (b : BrResult) : (p.withBr b).fPadding = p.fPadding := rfl
@[simp] theorem Payload.withBr_fPrivate (p : Payload) (b : BrResult) : (p.withBr b).fPrivate = p.fPrivate := rfl
@[simp] theorem Payload.withBr_fMode (p : Payload) (b : BrResult) : (p.withBr b).fMode = p.fMode := rfl
@[simp] theorem Payload.withBr_fModeExt (p : Payload) (b : BrResult) : (p.withBr b).fModeExt = p.fModeExt := rfl
@[simp] theorem Payload.withBr_fCopyright (p : Payload) (b : BrResult) : (p.withBr b).fCopyright = p.fCopyright := rfl
@[simp] theorem Payload.withBr_fOriginal (p : Payload) (b : BrResult) : (p.withBr b).fOriginal = p.fOriginal := rfl
@[simp] theorem Payload.withBr_fEmphasis (p : Payload) (b : BrResult) : (p.withBr b).fEmphasis = p.fEmphasis := rfl
@[simp] theorem Payload.withBr_brKind (p : Payload) (b : BrResult) : (p.withBr b).brKind = b.kind := rfl
@[simp] theorem Payload.withBr_brRaw (p : Payload) (b : BrResult) : (p.withBr b).brRaw = b.raw := rfl
@[simp] theorem Payload.withBr_brBps (p : Payload) (b : BrResult) : (p.withBr b).brBps = b.bps := rfl
@[simp] theorem Payload.withBr_srKind (p : Payload) (b : BrResult) : (p.withBr b).srKind = p.srKind := rfl
@[simp] theorem Payload.withBr_srHz (p : Payload) (b : BrResult) : (p.withBr b).srHz = p.srHz := rfl

@[simp] theorem Payload.withSr_rspOp (p : Payload) (r : SrResult) : (p.withSr r).rspOp = p.rspOp := rfl
@[simp] theorem Payload.withSr_rspStatus (p : Payload) (r : SrResult) : (p.withSr r).rspStatus = p.rspStatus := rfl
@[simp] theorem Payload.withSr_fVersion (p : Payload) (r : SrResult) : (p.withSr r).fVersion = p.fVersion := rfl
@[simp] theorem Payload.withSr_fLayer (p : Payload) (r : SrResult) : (p.withSr r).fLayer = p.fLayer := rfl
@[simp] theorem Payload.withSr_fProtection (p : Payload) (r : SrResult) : (p.withSr r).fProtection = p.fProtection := rfl
@[simp] theorem Payload.withSr_fBrIndex (p : Payload) (r : SrResult) : (p.withSr r).fBrIndex = p.fBrIndex := rfl
@[simp] theorem Payload.withSr_fSrIndex (p : Payload) (r : SrResult) : (p.withSr r).fSrIndex = p.fSrIndex := rfl
@[simp] theorem Payload.withSr_fPadding (p : Payload) (r : SrResult) : (p.withSr r).fPadding = p.fPadding := rfl
@[simp] theorem Payload.withSr_fPrivate (p : Payload) (r : SrResult) : (p.withSr r).fPrivate = p.fPrivate := rfl
@[simp] theorem Payload.withSr_fMode (p : Payload) (r : SrResult) : (p.withSr r).fMode = p.fMode := rfl
@[simp] theorem Payload.withSr_fModeExt (p : Payload) (r : SrResult) : (p.withSr r).fModeExt = p.fModeExt := rfl
@[simp] theorem Payload.withSr_fCopyright (p : Payload) (r : SrResult) : (p.withSr r).fCopyright = p.fCopyright := rfl
@[simp] theorem Payload.withSr_fOriginal (p : Payload) (r : SrResult) : (p.withSr r).fOriginal = p.fOriginal := rfl
@[simp] theorem Payload.withSr_fEmphasis (p : Payload) (r : SrResult) : (p.withSr r).fEmphasis = p.fEmphasis := rfl
@[simp] theorem Payload.withSr_brKind (p : Payload) (r : SrResult) : (p.withSr r).brKind = p.brKind := rfl
@[simp] theorem Payload.withSr_brRaw (p : Payload) (r : SrResult) : (p.withSr r).brRaw = p.brRaw := rfl
@[simp] theorem Payload.withSr_brBps (p : Payload) (r : SrResult) : (p.withSr r).brBps = p.brBps := rfl
@[simp] theorem Payload.withSr_srKind (p : Payload) (r : SrResult) : (p.withSr r).srKind = r.kind := rfl
@[simp] theorem Payload.withSr_srHz (p : Payload) (r : SrResult) : (p.withSr r).srHz = r.hz := rfl

@[simp] theorem Payload.zero_rspOp : Payload.zero.rspOp = 0 := rfl
@[simp] theorem Payload.zero_rspStatus : Payload.zero.rspStatus = 0 := rfl
@[simp] theorem Payload.zero_fVersion : Payload.zero.fVersion = 0 := rfl
@[simp] theorem Payload.zero_fLayer : Payload.zero.fLayer = 0 := rfl
@[simp] theorem Payload.zero_fProtection : Payload.zero.fProtection = 0 := rfl
@[simp] theorem Payload.zero_fBrIndex : Payload.zero.fBrIndex = 0 := rfl
@[simp] theorem Payload.zero_fSrIndex : Payload.zero.fSrIndex = 0 := rfl
@[simp] theorem Payload.zero_fPadding : Payload.zero.fPadding = 0 := rfl
@[simp] theorem Payload.zero_fPrivate : Payload.zero.fPrivate = 0 := rfl
@[simp] theorem Payload.zero_fMode : Payload.zero.fMode = 0 := rfl
@[simp] theorem Payload.zero_fModeExt : Payload.zero.fModeExt = 0 := rfl
@[simp] theorem Payload.zero_fCopyright : Payload.zero.fCopyright = 0 := rfl
@[simp] theorem Payload.zero_fOriginal : Payload.zero.fOriginal = 0 := rfl
@[simp] theorem Payload.zero_fEmphasis : Payload.zero.fEmphasis = 0 := rfl
@[simp] theorem Payload.zero_brKind : Payload.zero.brKind = 0 := rfl
@[simp] theorem Payload.zero_brRaw : Payload.zero.brRaw = 0 := rfl
@[simp] theorem Payload.zero_brBps : Payload.zero.brBps = 0 := rfl
@[simp] theorem Payload.zero_srKind : Payload.zero.srKind = 0 := rfl
@[simp] theorem Payload.zero_srHz : Payload.zero.srHz = 0 := rfl

end Sys2Proof.Machine
end

