-- ==== Sys2Proof/Laws/Ops.lean ====
section
/-! SUPPORT. Once for each shared operation, everything it can do; cited instead of unfolding it. -/

namespace Sys2Proof.Machine

/-- The guard of every edge: a next state exactly when both table arguments are legal (R135, R139). -/
theorem guardTables_next_iff {s n t : State} : guardTables s n = .next t ↔ s.TablesLegal ∧ n = t := by
  unfold guardTables State.TablesLegal
  by_cases hb : brLegal s.brRom <;> by_cases hr : srLegal s.srRom <;> simp [hb, hr]

theorem guardTables_of_legal {s : State} (h : s.TablesLegal) (n : State) : guardTables s n = .next n :=
  guardTables_next_iff.mpr ⟨h, rfl⟩

/-- No guard faults. -/
theorem guardTables_ne_fault (s n : State) (f : Fault) : guardTables s n ≠ .fault f := by
  unfold guardTables
  by_cases hb : brLegal s.brRom <;> by_cases hr : srLegal s.srRom <;> simp [hb, hr]

/-- Once the block has been reset, an edge writes what R24 says. -/
theorem State.withUpdate_afterReset {s : State} (h : s.phase = .afterReset) (v : BitVec 1) (p : Payload) :
    s.withUpdate v p = s.withResponse v p := by
  simp [State.withUpdate, h]

/-- Until the first reset edge, what an edge writes is lost (R232). -/
theorem State.withUpdate_beforeReset {s : State} {n : Nat} (h : s.phase = .beforeReset n) (v : BitVec 1) (p : Payload) :
    s.withUpdate v p = s.withUnspecified (n + 1) := by
  simp [State.withUpdate, h]

@[simp] theorem State.withUpdate_brRom (s : State) (v : BitVec 1) (p : Payload) : (s.withUpdate v p).brRom = s.brRom := by
  unfold State.withUpdate; split <;> rfl

@[simp] theorem State.withUpdate_srRom (s : State) (v : BitVec 1) (p : Payload) : (s.withUpdate v p).srRom = s.srRom := by
  unfold State.withUpdate; split <;> rfl

@[simp] theorem State.withUpdate_cycles (s : State) (v : BitVec 1) (p : Payload) : (s.withUpdate v p).cycles = s.cycles := by
  unfold State.withUpdate; split <;> rfl

/-- An edge without reset keeps the phase but for the count of edges. -/
theorem State.withUpdate_phase_afterReset_iff (s : State) (v : BitVec 1) (p : Payload) :
    (s.withUpdate v p).phase = .afterReset ↔ s.phase = .afterReset := by
  unfold State.withUpdate; split <;> simp [*]

/-- An edge with `rst = 0`: its update, under the guard (R24, R232). -/
theorem writeResponse_next_iff {v : BitVec 1} {p : Payload} {s t : State} :
    writeResponse v p s = .next t ↔ s.TablesLegal ∧ t = s.withUpdate v p :=
  guardTables_next_iff.trans (and_congr_right fun _ => eq_comm)

theorem respond_next_iff {op : BitVec 2} {p : Payload} {s t : State} :
    respond op p s = .next t ↔ s.TablesLegal ∧ t = s.withUpdate 1 (p.withOp op) := writeResponse_next_iff

theorem resetEdge_next_iff {s t : State} :
    resetEdge s = .next t ↔ s.TablesLegal ∧ t = (s.withResponse 0 Payload.zero).withPhase .afterReset :=
  guardTables_next_iff.trans (and_congr_right fun _ => eq_comm)

theorem idleEdge_next_iff {s t : State} :
    idleEdge s = .next t ↔ s.TablesLegal ∧ t = s.withUpdate 0 s.payload := writeResponse_next_iff

/-- The answer to a request, for every operation (R24, R25). -/
theorem exec_eq (i : Instr) (s : State) : exec i s = writeResponse 1 (answer s.brRom s.srRom i) s := by
  cases i <;> rfl

theorem exec_next_iff {i : Instr} {s t : State} :
    exec i s = .next t ↔ s.TablesLegal ∧ t = s.withUpdate 1 (answer s.brRom s.srRom i) := by
  rw [exec_eq, writeResponse_next_iff]

/-- What an operation does in a block that has been reset (R24). -/
theorem exec_next_iff_of_afterReset {i : Instr} {s t : State} (h : s.phase = .afterReset) :
    exec i s = .next t ↔ s.TablesLegal ∧ t = s.withResponse 1 (answer s.brRom s.srRom i) := by
  rw [exec_next_iff, State.withUpdate_afterReset h]

theorem exec_of_ready (i : Instr) {s : State} (h : s.Ready) :
    exec i s = .next (s.withResponse 1 (answer s.brRom s.srRom i)) :=
  (exec_next_iff_of_afterReset h.2).mpr ⟨h.1, rfl⟩

@[simp] theorem answer_rspOp (br : List Host.Cell) (sr : List (Nat × BitVec 16)) (i : Instr) :
    (answer br sr i).rspOp = i.op := by
  cases i <;> rfl

/-- What one edge can do, guards included (R24, R232). -/
theorem edge_cases {c : Cycle} {s t : State} (h : edge c s = .next t) :
    s.TablesLegal ∧
      ((c.rst = 1 ∧ t = (s.withResponse 0 Payload.zero).withPhase .afterReset)
        ∨ (c.rst ≠ 1 ∧ c.reqValid = 1
            ∧ t = s.withUpdate 1 (answer s.brRom s.srRom (decodePort c.reqOp c.reqData)))
        ∨ (c.rst ≠ 1 ∧ c.reqValid ≠ 1 ∧ t = s.withUpdate 0 s.payload)) := by
  unfold edge at h
  split at h
  · obtain ⟨hl, ht⟩ := resetEdge_next_iff.mp h
    exact ⟨hl, .inl ⟨‹_›, ht⟩⟩
  · split at h
    · obtain ⟨hl, ht⟩ := exec_next_iff.mp h
      exact ⟨hl, .inr (.inl ⟨‹_›, ‹_›, ht⟩)⟩
    · obtain ⟨hl, ht⟩ := idleEdge_next_iff.mp h
      exact ⟨hl, .inr (.inr ⟨‹_›, ‹_›, ht⟩)⟩

@[simp] theorem nextCycle_cons (s : State) (c : Cycle) (rest : List Cycle) (h : s.cycles = c :: rest) :
    nextCycle s = (c, s.withCycles rest) := by
  simp [nextCycle, h]

@[simp] theorem nextCycle_nil (s : State) (h : s.cycles = []) : nextCycle s = (Cycle.idle, s) := by
  simp [nextCycle, h]

@[simp] theorem nextCycle_brRom (s : State) : (nextCycle s).2.brRom = s.brRom := by
  unfold nextCycle; split <;> rfl

@[simp] theorem nextCycle_srRom (s : State) : (nextCycle s).2.srRom = s.srRom := by
  unfold nextCycle; split <;> rfl

@[simp] theorem nextCycle_payload (s : State) : (nextCycle s).2.payload = s.payload := by
  unfold nextCycle; split <;> rfl

@[simp] theorem nextCycle_rspValid (s : State) : (nextCycle s).2.rspValid = s.rspValid := by
  unfold nextCycle; split <;> rfl

@[simp] theorem nextCycle_phase (s : State) : (nextCycle s).2.phase = s.phase := by
  unfold nextCycle; split <;> rfl

/-- A step under a presented cycle is one edge with that cycle consumed (R20, R24). -/
theorem step_of_cons {s : State} {c : Cycle} {rest : List Cycle} (h : s.cycles = c :: rest) :
    step s = edge c (s.withCycles rest) := by
  simp [step, nextCycle_cons s c rest h]

/-- What one step can do: one edge's update of the response registers and the phase, and one cycle consumed (R24, R232). -/
theorem step_cases {s t : State} (h : step s = .next t) :
    s.TablesLegal ∧ t.brRom = s.brRom ∧ t.srRom = s.srRom ∧ t.cycles = s.cycles.tail
      ∧ (((nextCycle s).1.rst = 1 ∧ t.phase = .afterReset ∧ t.rspValid = 0 ∧ t.payload = Payload.zero)
        ∨ ((nextCycle s).1.rst ≠ 1 ∧ s.phase = .afterReset ∧ t.phase = .afterReset
            ∧ (((nextCycle s).1.reqValid = 1 ∧ t.rspValid = 1
                ∧ t.payload = answer s.brRom s.srRom (decodePort (nextCycle s).1.reqOp (nextCycle s).1.reqData))
              ∨ ((nextCycle s).1.reqValid ≠ 1 ∧ t.rspValid = 0 ∧ t.payload = s.payload)))
        ∨ ((nextCycle s).1.rst ≠ 1 ∧ ∃ n, s.phase = .beforeReset n ∧ t.phase = .beforeReset (n + 1)
            ∧ t.rspValid = (Config.powerOnBits (n + 1)).extractLsb' 73 1
            ∧ t.payload = Payload.ofBits (Config.powerOnBits (n + 1)))) := by
  have hc : (nextCycle s).2.cycles = s.cycles.tail := by
    unfold nextCycle
    cases h : s.cycles <;> simp [h]
  obtain ⟨hl, hcase⟩ := edge_cases h
  have hl' : s.TablesLegal := by simpa [State.TablesLegal] using hl
  rcases hcase with ⟨a, rfl⟩ | ⟨a, b, rfl⟩ | ⟨a, b, rfl⟩
  · exact ⟨hl', by simp, by simp, by simp [hc], .inl ⟨a, by simp, by simp, by simp⟩⟩
  all_goals refine ⟨hl', by simp, by simp, by simp [hc], .inr ?_⟩
  all_goals
    cases hp : s.phase with
    | beforeReset n =>
      have hu := State.withUpdate_beforeReset (s := (nextCycle s).2) ((nextCycle_phase s).trans hp)
      exact .inr ⟨a, n, rfl, by simp [hu], by simp [hu], by simp [hu]⟩
    | afterReset =>
      have hu := State.withUpdate_afterReset (s := (nextCycle s).2) ((nextCycle_phase s).trans hp)
      first
      | exact .inl ⟨a, rfl, by simp [hu, hp], .inl ⟨b, by simp [hu], by simp [hu]⟩⟩
      | exact .inl ⟨a, rfl, by simp [hu, hp], .inr ⟨b, by simp [hu], by simp [hu]⟩⟩

/-- A bitrate result, by the entry's value (R140). -/
theorem classifyBr_cases (e : BitVec 8) :
    (e.toInt = -1 ∧ classifyBr e = ⟨brInvalid, e, 0⟩)
      ∨ (e.toInt = 0 ∧ classifyBr e = ⟨brAny, e, 0⟩)
      ∨ (e.toInt ≠ -1 ∧ e.toInt ≠ 0 ∧ classifyBr e = ⟨brValid, e, BitVec.ofInt 20 (e.toInt * 8000)⟩) := by
  unfold classifyBr
  split
  · exact .inl ⟨‹_›, rfl⟩
  · split
    · exact .inr (.inl ⟨‹_›, rfl⟩)
    · exact .inr (.inr ⟨‹_›, ‹_›, rfl⟩)

/-- A sample-rate result, by the entry's value (R145). -/
theorem classifySr_cases (e : BitVec 16) :
    (e = 0 ∧ classifySr e = ⟨srReserved, 0⟩) ∨ (e ≠ 0 ∧ classifySr e = ⟨srValid, e⟩) := by
  unfold classifySr
  split
  · exact .inl ⟨‹_›, rfl⟩
  · exact .inr ⟨‹_›, rfl⟩

/-- The product `e × 8000` of a legal positive entry is exact in 20 bits (R141). -/
theorem brBps_exact (e : BitVec 8) (h : 1 ≤ e.toInt) :
    (BitVec.ofInt 20 (e.toInt * 8000)).toNat = e.toNat * 8000 ∧ e.toNat ≤ 127 := by
  have hlt := e.isLt
  have : e.toInt = e.toNat := by
    rw [BitVec.toInt_eq_toNat_cond] at h ⊢
    split at h
    · simp_all
    · omega
  rw [BitVec.toInt_eq_toNat_cond] at h
  split at h
  · refine ⟨?_, by omega⟩
    rw [this, BitVec.toNat_ofInt]
    omega
  · omega

end Sys2Proof.Machine
end

