-- ==== Sys2Proof/Laws/PerInstr.lean ====
section
/-! SUPPORT. Statements made of every instruction, one lemma per constructor. -/

/-- An instruction's encoding belongs to the opcode-table row of its mnemonic, and to no other (spec/opcode_table.json;
30_encoding.md R71). -/
def Sys2Proof.Laws.EncodesIntoItsRow.Statement (i : Sys2Proof.Instr) : Prop :=
  ∀ row ∈ Sys2Proof.opcodeRows, row.selects (Sys2Proof.encode i) = (row.mnemonic == i.mnemonic)

namespace Sys2Proof.Laws.EncodesIntoItsRow

/-- A row looks only at the operation code. -/
theorem selects_append (row : OpcodeRow) (hrow : row ∈ opcodeRows) (op : BitVec 2) (data : HeaderWord) :
    row.selects (op ++ data) = (row.pattern.extractLsb' 32 2 == op) := by
  have hmask : (op ++ data : BitVec 34) &&& (0b11#2 ++ 0#32) = op ++ 0#32 := by
    rw [BitVec.and_append, BitVec.and_zero, show op &&& 0b11#2 = op from BitVec.and_allOnes]
  have hop : ∀ a b : BitVec 2, (a ++ 0#32 == (b ++ 0#32 : BitVec 34)) = (b == a) := by decide
  simp only [opcodeRows, List.mem_cons, List.not_mem_nil, or_false] at hrow
  rcases hrow with rfl | rfl | rfl | rfl
  · exact (congrArg (· == _) hmask).trans (hop op 0b00#2)
  · exact (congrArg (· == _) hmask).trans (hop op 0b01#2)
  · exact (congrArg (· == _) hmask).trans (hop op 0b10#2)
  · exact (congrArg (· == _) hmask).trans (hop op 0b11#2)

/-- The row of an operation code is the row of its mnemonic. -/
theorem row_of_op : ∀ row ∈ opcodeRows,
    (row.pattern.extractLsb' 32 2 == 0b00#2) = (row.mnemonic == "DECODE")
      ∧ (row.pattern.extractLsb' 32 2 == 0b01#2) = (row.mnemonic == "RESOLVE.BR")
      ∧ (row.pattern.extractLsb' 32 2 == 0b10#2) = (row.mnemonic == "RESOLVE.SR")
      ∧ (row.pattern.extractLsb' 32 2 == 0b11#2) = (row.mnemonic == "OP3") := by decide

theorem decode (sync : BitVec 11) (header : Header) : Statement (.decode sync header) := fun row hrow =>
  (selects_append row hrow _ _).trans (row_of_op row hrow).1

theorem resolveBr (version layer : BitVec 2) (brIndex : BitVec 4) : Statement (.resolveBr version layer brIndex) :=
  fun row hrow => (selects_append row hrow _ _).trans (row_of_op row hrow).2.1

theorem resolveSr (version srIndex : BitVec 2) : Statement (.resolveSr version srIndex) := fun row hrow =>
  (selects_append row hrow _ _).trans (row_of_op row hrow).2.2.1

theorem op3 : Statement .op3 := fun row hrow => (selects_append row hrow _ _).trans (row_of_op row hrow).2.2.2

end Sys2Proof.Laws.EncodesIntoItsRow
end

