-- ==== Sys2Proof/Tests/Slice0.lean ====
section
/-! SUPPORT. The model's own tests. Expected results are those of spec/95_test_vectors.md (named per test), or written out by
hand from the rule cited; then a witness for the hypotheses of every statement that has any. -/

namespace Sys2Proof.Tests

open Sys2Proof Sys2Proof.Machine

/-! ### Helpers -/

/-- The next state, if there is one. -/
def next? : Host.Outcome State Fault Refusal → Option State
  | .next s => some s
  | .fault _ => none
  | .refused _ => none

/-- The refusal, if there is one. -/
def refusal? : Host.Outcome State Fault Refusal → Option Refusal
  | .next _ => none
  | .fault _ => none
  | .refused r => some r

/-- A payload with every field set, that no operation writes. -/
def stale : Payload := ⟨3, 3, 3, 3, 1, 15, 3, 1, 1, 3, 3, 1, 1, 3, 3, 255, 1048575, 3, 65535⟩

/-- A block with stale registers and the given coming cycles. -/
def block (cs : List Cycle) : State := { State.reset with rspValid := 1, payload := stale, cycles := cs }

/-- A block at power-on, with the given coming cycles. -/
def fresh (cs : List Cycle) : State := { State.powerOn with cycles := cs }

/-- A block whose `BR_LUT` holds 127, the largest legal entry, at `(MPEG_2_5, LAYER_3, 1)`, and whose `SR_LUT` holds 65535 at
`(MPEG_2_5, 0)`. -/
def otherTables (cs : List Cycle) : State := { block cs with brRom := [(0x11, 127)], srRom := [(0x0, 65535)] }

/-- A block whose `BR_LUT` breaks R132. -/
def illegalBr (cs : List Cycle) : State := { block cs with brRom := [(0x40, 5)] }

/-- A block whose `SR_LUT` breaks R137. -/
def illegalSr (cs : List Cycle) : State := { block cs with srRom := [(0x3, 8000)] }

/-- The payload after one step on the given line of text. -/
def payloadAfter (text : String) : Option Payload :=
  match assembleText text with
  | .ok c => (next? (step (block [c]))).map (·.payload)
  | .error _ => none

/-- The string an item renders to after one step on the given line of text. -/
def renderAfter (item : RenderItem) (text : String) : Option Rendering :=
  match assembleText text with
  | .ok c => (next? (step (block [c]))).map fun s => render item (outputPorts s)
  | .error _ => none

/-! ### Decoding: words written out bit by bit from R70, R73 and R74 -/

/-- V10: op 00, sync, version 10, layer 01, protection 1, index 1000, sr index 01, padding 1, private 0, mode 01, ext 10,
copyright 0, original 1, emphasis 01. -/
theorem test_decode_word_decode :
    decodeRequest 0b00_11111111111_10_01_1_1000_01_1_0_01_10_0_1_01#34
      = .decode 0b11111111111#11 ⟨0b10, 0b01, 1, 0b1000, 0b01, 1, 0, 0b01, 0b10, 0, 1, 0b01⟩ := by decide

/-- V23: op 01, v 01, l 01, i 1101, every ignored bit set. -/
theorem test_decode_word_resolveBr :
    decodeRequest 0b01_11111111111_01_01_1_1101_111111111111#34 = .resolveBr 0b01 0b01 0b1101 := by decide

/-- V24 with every ignored bit set: op 10, v 00, i 10. -/
theorem test_decode_word_resolveSr :
    decodeRequest 0b10_11111111111_00_1111111_10_1111111111#34 = .resolveSr 0b00 0b10 := by decide

/-- V28: op 11. -/
theorem test_decode_word_op3 : decodeRequest 0b11_00000000000000000000000000000000#34 = .op3 := by decide

/-- W9: the bytes 0xFF 0xFB 0x90 0x00 are version MPEG_1, layer LAYER_3, protection true, index 9, sample-rate index 0. -/
theorem test_header_bytes :
    decodeBytes 0b00 [0xFF, 0xFB, 0x90, 0x00]
        = .ok (.decode 0b11111111111#11 ⟨0b11, 0b01, 1, 9, 0b00, 0, 0, 0b00, 0b00, 0, 0, 0b00⟩)
      ∧ decodeBytes 0b00 [0xFF, 0xFB, 0x90] = .error .headerLength
      ∧ decodeBytes 0b00 [0xFF, 0xFB, 0x90, 0x00, 0x00] = .error .headerLength := ⟨rfl, rfl, rfl⟩

/-- A number wider than a request is rejected by name (R70: one length). -/
theorem test_wide_number_rejected : decodeNumber (2 ^ 34) = .error .requestTooWide := rfl

/-! ### Each operation, one step -/

/-- V10. -/
theorem test_decode_v10 :
    payloadAfter "DECODE 0xFFF38665"
      = some ⟨0b00, 0b00, 0b10, 0b01, 1, 8, 0b01, 1, 0, 0b01, 0b10, 0, 1, 0b01, 0b01, 0x08, 64000, 0b01, 24000⟩ := by
  decide +kernel

/-- V7: only `W[21]` is 0. -/
theorem test_decode_v7_bad_sync :
    payloadAfter "DECODE 0xFFDFFFFF"
      = some ⟨0b00, 0b01, 0, 0, 0, 0, 0, 0, 0, 0, 0, 0, 0, 0, 0, 0, 0, 0, 0⟩ := by decide +kernel

/-- V20, as the pseudo-instruction `RESOLVE.BR 3, 1, 9`. -/
theorem test_resolveBr_v20 :
    payloadAfter "RESOLVE.BR 3, 1, 9"
      = some ⟨0b01, 0b00, 0, 0, 0, 0, 0, 0, 0, 0, 0, 0, 0, 0, 0b01, 0x10, 128000, 0b00, 0⟩ := by decide +kernel

/-- V23: a reserved version is INVALID, with every ignored bit set. -/
theorem test_resolveBr_v23 :
    payloadAfter "RESOLVE.BR 0xFFEBDFFF"
      = some ⟨0b01, 0b00, 0, 0, 0, 0, 0, 0, 0, 0, 0, 0, 0, 0, 0b11, 0xFF, 0, 0b00, 0⟩ := by decide +kernel

/-- V24. -/
theorem test_resolveSr_v24 :
    payloadAfter "RESOLVE.SR 0x00000800"
      = some ⟨0b10, 0b00, 0, 0, 0, 0, 0, 0, 0, 0, 0, 0, 0, 0, 0b00, 0x00, 0, 0b01, 8000⟩ := by decide +kernel

/-- V25. -/
theorem test_resolveSr_v25 :
    payloadAfter "RESOLVE.SR 1, 3"
      = some ⟨0b10, 0b00, 0, 0, 0, 0, 0, 0, 0, 0, 0, 0, 0, 0, 0b00, 0x00, 0, 0b10, 0⟩ := by decide +kernel

/-- V27. -/
theorem test_op3_v27 :
    payloadAfter "OP3 0xFFFB9000"
      = some ⟨0b11, 0b10, 0, 0, 0, 0, 0, 0, 0, 0, 0, 0, 0, 0, 0, 0, 0, 0, 0⟩ := by decide +kernel

/-- P3 cycle 3: a request driven in a reset cycle is dropped. -/
theorem test_reset_drops_request :
    next? (step (block [⟨1, 1, 0b00, 0xFFFEE800⟩])) = some State.reset := by decide +kernel

/-- P1 cycle 2: an idle cycle holds the payload and clears `rsp_valid`. -/
theorem test_idle_holds :
    next? (step (block [Cycle.idle])) = some { State.reset with payload := stale } := by decide +kernel

/-- R232: two edges without reset, a request and an idle cycle, leave the registers unspecified; only the count is known. The
third edge resets. -/
theorem test_unspecified_until_reset :
    next? (step (fresh [⟨0, 1, 0b00, 0xFFFB9000⟩])) = some ((fresh []).withUnspecified 1)
      ∧ next? (step ((fresh [Cycle.idle]).withUnspecified 1)) = some ((fresh []).withUnspecified 2)
      ∧ next? (step ((fresh [⟨1, 1, 0b00, 0xFFFB9000⟩]).withUnspecified 2)) = some State.reset := ⟨rfl, rfl, rfl⟩

/-- P4: the `(MPEG_1, LAYER_3)` row, indices 0 to 15. -/
theorem test_row_p4 :
    (List.range 16).map (fun i => (resolveBr [] 0b11 0b01 (BitVec.ofNat 4 i)).bps)
      = [0, 32000, 40000, 48000, 56000, 64000, 80000, 96000, 112000, 128000, 160000, 192000, 224000, 256000, 320000, 0] := by
  decide +kernel

/-- How many of the 2^10 combinations of version, layer and both indices give the two kinds. -/
def classCount (br sr : BitVec 2) : Nat :=
  (List.range 1024).countP fun k =>
    (resolveBr [] (BitVec.ofNat 2 (k / 256)) (BitVec.ofNat 2 (k / 64)) (BitVec.ofNat 4 (k / 4))).kind == br
      && (resolveSr [] (BitVec.ofNat 2 (k / 256)) (BitVec.ofNat 2 k)).kind == sr

/-- V29: the six classes of the 2^21 words with a valid sync; the other 11 bits are free, so each count is of 2^11 words. -/
theorem test_classes_v29 :
    [classCount brValid srValid, classCount brValid srReserved, classCount brAny srValid, classCount brAny srReserved,
      classCount brInvalid srValid, classCount brInvalid srReserved].map (· * 2048)
      = [774144, 258048, 55296, 18432, 350208, 641024] := by decide +kernel

/-! ### Renderers (V30 to V38) -/

theorem test_render_rates :
    renderAfter .bitrate "DECODE 0xFFFB9000" = some (.text "128000")
      ∧ renderAfter .bitrate "DECODE 0xFFFB0000" = some (.text "ANY")
      ∧ renderAfter .bitrate "DECODE 0xFFFBF000" = some (.text "INVALID")
      ∧ renderAfter .sampleRate "DECODE 0xFFFB9000" = some (.text "44100")
      ∧ renderAfter .sampleRate "DECODE 0xFFFB9C00" = some (.text "INVALID") := by decide +kernel

theorem test_render_refused :
    renderAfter .version "DECODE 0x00000000" = some (.refused .renderNoResult)
      ∧ renderAfter .bitrate "RESOLVE.SR 0x00000800" = some (.refused .renderNotHeld)
      ∧ renderAfter .emphasis "DECODE 0xFFFB9000" = some (.refused .renderNoString) := by decide +kernel

/-! ### WellFormed: an ill-formed term for each check (R83) -/

theorem test_wf_resolveBr_refuses :
    (Line.resolveBrFields 4 0 0).wf = false ∧ (Line.resolveBrFields 0 4 0).wf = false
      ∧ (Line.resolveBrFields 0 0 16).wf = false ∧ (Line.resolveBrFields 3 3 15).wf = true := by decide

theorem test_wf_resolveSr_refuses :
    (Line.resolveSrFields 4 0).wf = false ∧ (Line.resolveSrFields 0 4).wf = false
      ∧ (Line.resolveSrFields 3 3).wf = true := by decide

theorem test_wf_decode_refuses :
    [Line.decodeFields 4 0 0 0 0 0 0 0 0 0 0 0, Line.decodeFields 0 4 0 0 0 0 0 0 0 0 0 0,
      Line.decodeFields 0 0 2 0 0 0 0 0 0 0 0 0, Line.decodeFields 0 0 0 16 0 0 0 0 0 0 0 0,
      Line.decodeFields 0 0 0 0 4 0 0 0 0 0 0 0, Line.decodeFields 0 0 0 0 0 2 0 0 0 0 0 0,
      Line.decodeFields 0 0 0 0 0 0 2 0 0 0 0 0, Line.decodeFields 0 0 0 0 0 0 0 4 0 0 0 0,
      Line.decodeFields 0 0 0 0 0 0 0 0 4 0 0 0, Line.decodeFields 0 0 0 0 0 0 0 0 0 2 0 0,
      Line.decodeFields 0 0 0 0 0 0 0 0 0 0 2 0, Line.decodeFields 0 0 0 0 0 0 0 0 0 0 0 4].all (fun l => !l.wf) = true
      ∧ (Line.decodeFields 3 3 1 15 3 1 1 3 3 1 1 3).wf = true := by decide

/-- The table arguments: one refused list for each check (R132 to R135, R137, R138), and a legal one. -/
theorem test_table_checks_refuse :
    brLegal [(0x40, 5)] = false ∧ brLegal [(0x10, 1)] = false ∧ brLegal [(0xD9, 15)] = false
      ∧ brLegal [(0xDF, 1)] = false ∧ brLegal [(0x11, 0x80)] = false ∧ brLegal [(0x12, 9), (0x11, 9)] = false
      ∧ brLegal [(0x11, 1)] = false ∧ srLegal [(0x3, 8000)] = false ∧ srLegal [(0x4, 1)] = false
      ∧ srLegal [(0xC, 1)] = false ∧ srLegal [(0x2, 1)] = false
      ∧ brLegal [(0x11, 127)] = true ∧ srLegal [(0x0, 65535)] = true := by decide +kernel

/-! ### The cycle notation -/

/-- V19's DECODE.F operands assemble to V10's word; a wide operand and a foreign line are refused. -/
theorem test_assemble :
    assembleText "DECODE.F 2, 1, 1, 8, 1, 1, 0, 1, 2, 0, 1, 1" = .ok ⟨0, 1, 0b00, 0xFFF38665⟩
      ∧ assembleText "IDLE" = .ok Cycle.idle ∧ assembleText "RESET" = .ok Cycle.reset
      ∧ assembleText "RESOLVE.BR 3, 1, 16" = .error .operandTooWide
      ∧ assembleText "NOP" = .error .notALine ∧ assembleText "DECODE 0xFFFB900" = .error .notALine :=
  ⟨rfl, rfl, rfl, rfl, rfl, rfl⟩

/-! ### Witnesses: states and operands that meet the hypotheses of the statements -/

/-- Legal tables, a reset edge seen and stale registers: the hypothesis of every statement about a legal or a ready state. -/
theorem witness_ready : (block [⟨0, 1, 0b00, 0xFFFB9000⟩]).Ready := by decide

/-- Legal tables other than the default ones, at the boundary values 127 and 65535. -/
theorem witness_ready_other : (otherTables []).Ready := by decide

/-- Power-on with a request, an idle cycle and then a reset cycle that drives a request (BeforeFirstResetRegistersAreUnspecified
and the second clause of PowerOnThenResetIsReset, with the first and the second edge since power-on). -/
theorem witness_before_reset :
    State.powerOn.TablesLegal ∧ State.powerOn.phase = .beforeReset 0
      ∧ (fresh [⟨0, 1, 0b00, 0xFFFB9000⟩, Cycle.idle]).cycles = ⟨0, 1, 0b00, 0xFFFB9000⟩ :: [Cycle.idle]
      ∧ (∀ b ∈ [⟨0, 1, 0b00, 0xFFFB9000⟩, Cycle.idle], b.rst = 0) ∧ (⟨1, 1, 0b11, 5⟩ : Cycle).rst = 1 := by decide

/-- A block at power-on whose first cycle resets it (the second disjunct of ResponsesAreTheAnswersInOrder). -/
theorem witness_reset_first :
    (fresh [⟨1, 0, 0b00, 0⟩, ⟨0, 1, 0b11, 5⟩]).TablesLegal
      ∧ ∃ c rest, (fresh [⟨1, 0, 0b00, 0⟩, ⟨0, 1, 0b11, 5⟩]).cycles = c :: rest ∧ c.rst = 1 :=
  ⟨by decide, ⟨1, 0, 0b00, 0⟩, [⟨0, 1, 0b11, 5⟩], rfl, rfl⟩

/-- A request cycle at the head (StepRunsPresentedRequest, EdgeFollowsUpdateRule, StepAnswersItsCycle, HeldRequestIsServedEveryEdge with
k = 1, LatencyIsOneClock). -/
theorem witness_request_cycle :
    (block [⟨0, 1, 0b01, 0x001A9000⟩]).Ready
      ∧ (block [⟨0, 1, 0b01, 0x001A9000⟩]).cycles = ⟨0, 1, (Instr.resolveBr 3 1 9).op, (Instr.resolveBr 3 1 9).data⟩ :: []
      ∧ (block [⟨0, 1, 0b01, 0x001A9000⟩]).cycles = List.replicate 1 ⟨0, 1, 0b01, 0x001A9000⟩ ++ []
      ∧ (⟨0, 1, 0b01, 0x001A9000⟩ : Cycle).rst = 0 ∧ (⟨0, 1, 0b01, 0x001A9000⟩ : Cycle).reqValid = 1 := by decide

/-- A reset cycle that also drives a request (ResetEdgeClearsEveryRegister, PowerOnThenResetIsReset, the second clause of
EveryEdgeKeepsTheInvariant). -/
theorem witness_reset_cycle :
    (block [⟨1, 1, 0b00, 0xFFFEE800⟩]).TablesLegal
      ∧ (block [⟨1, 1, 0b00, 0xFFFEE800⟩]).cycles = ⟨1, 1, 0b00, 0xFFFEE800⟩ :: []
      ∧ (⟨1, 1, 0b00, 0xFFFEE800⟩ : Cycle).rst = 1
      ∧ (next? (step (block [⟨1, 1, 0b00, 0xFFFEE800⟩]))).isSome = true := by decide +kernel

/-- An idle cycle (IdleEdgeHoldsPayload, the third branch of EdgeFollowsUpdateRule). -/
theorem witness_idle_cycle :
    (block [⟨0, 0, 0b11, 0xFFFFFFFF⟩]).Ready
      ∧ (block [⟨0, 0, 0b11, 0xFFFFFFFF⟩]).cycles = ⟨0, 0, 0b11, 0xFFFFFFFF⟩ :: []
      ∧ (⟨0, 0, 0b11, 0xFFFFFFFF⟩ : Cycle).rst = 0 ∧ (⟨0, 0, 0b11, 0xFFFFFFFF⟩ : Cycle).reqValid = 0 := by decide

/-- Both disjuncts of UnusedPortsAreIgnored. -/
theorem witness_unused_ports :
    ((⟨1, 0, 0b00, 0⟩ : Cycle).rst = 1 ∧ (⟨1, 1, 0b11, 5⟩ : Cycle).rst = 1)
      ∧ ((⟨0, 0, 0b00, 0⟩ : Cycle).rst = 0 ∧ (⟨0, 0, 0b11, 5⟩ : Cycle).rst = 0
        ∧ (⟨0, 0, 0b00, 0⟩ : Cycle).reqValid = 0 ∧ (⟨0, 0, 0b11, 5⟩ : Cycle).reqValid = 0) := by decide

/-- Illegal tables of either kind (IllegalTablesStopEveryEdge). -/
theorem witness_illegal_tables :
    ¬ (illegalBr []).TablesLegal ∧ ¬ (illegalSr []).TablesLegal
      ∧ refusal? (step (illegalBr [])) = some .illegalBrLut ∧ refusal? (step (illegalSr [])) = some .illegalSrLut := by
  decide +kernel

/-- Opcode rows and requests they select (DecodeThenEncodeKeepsOperandBits), one for each row. -/
theorem witness_rows_select :
    opcodeRows.map (fun row => row.selects row.pattern) = [true, true, true, true] := by decide

/-- Data words that agree on the operand bits and differ elsewhere (ResolverOperandsAndIgnoredBits). -/
theorem witness_ignored_bits :
    0x001A9000#32 &&& 0x001EF000#32 = 0xFFFB9FFF#32 &&& 0x001EF000#32
      ∧ 0x00000800#32 &&& 0x00180C00#32 = 0xFFE7FBFF#32 &&& 0x00180C00#32 := by decide

/-- Lengths on either side of 4 (HeaderBytesPackFirstByteHighest), numbers on either side of 2^34
(TableWordsDecodeAndWideNumbersAreRejected). -/
theorem witness_lengths_and_widths :
    ([0xFF, 0xFB, 0x90] : List Byte).length ≠ Config.hdrBytes ∧ ([1, 2, 3, 4, 5] : List Byte).length ≠ Config.hdrBytes
      ∧ 2 ^ 34 - 1 < 2 ^ 34 ∧ 2 ^ 34 ≤ 2 ^ 34 ∧ 34 ≤ 34 := by decide

/-- Words with a valid and with a bad sync, the boundary words of R100 (DecodeAnswers, ReencodeGivesTheWordBack,
InvalidSyncOnlyFromDecode). -/
theorem witness_sync :
    (0xFFE00000#32).extractLsb' 21 11 = 0b111_1111_1111#11 ∧ (0xFFDFFFFF#32).extractLsb' 21 11 ≠ 0b111_1111_1111#11 := by
  decide

/-- The three executions DecodeAgreesWithResolvers speaks of, from one state. -/
theorem witness_three_executions :
    (block []).phase = .afterReset ∧ (next? (exec (decodePort 0b00#2 0xFFFB9000#32) (block []))).isSome = true
      ∧ (next? (exec (decodePort 0b01#2 0xFFFB9000#32) (block []))).isSome = true
      ∧ (next? (exec (decodePort 0b10#2 0xFFFB9000#32) (block []))).isSome = true := by decide +kernel

/-- Operand values of every clause of ResolveBrAnswers and ResolveSrAnswers: reserved version, reserved layer, index 0 of a
non-reserved row, sample-rate index 3. -/
theorem witness_resolver_corners :
    (0x00080000#32).extractLsb' 19 2 = 0b01#2 ∧ (0x00180000#32).extractLsb' 17 2 = 0b00#2
      ∧ (0x001A0000#32).extractLsb' 19 2 ≠ 0b01#2 ∧ (0x001A0000#32).extractLsb' 17 2 ≠ 0b00#2
      ∧ (0x001A0000#32).extractLsb' 12 4 = 0#4 ∧ (0x00000C00#32).extractLsb' 10 2 = 0b11#2 := by decide

/-- Executions that end with an error status, with each sentinel, and with a VALID result, from one legal state (the
statements about every next state of exec). -/
theorem witness_executions :
    (next? (exec .op3 (block []))).map (·.payload.rspStatus) = some 0b10#2
      ∧ (next? (exec (decodePort 0b00#2 0#32) (block []))).map (·.payload.rspStatus) = some 0b01#2
      ∧ (next? (exec (.resolveBr 1 1 9) (block []))).map (·.payload.brKind) = some 0b11#2
      ∧ (next? (exec (.resolveBr 3 1 0) (block []))).map (·.payload.brKind) = some 0b10#2
      ∧ (next? (exec (.resolveSr 1 0) (block []))).map (·.payload.srKind) = some 0b10#2
      ∧ (next? (exec (.resolveBr 0 1 1) (otherTables []))).map (·.payload.brBps) = some 1016000#20
      ∧ (next? (exec (.resolveSr 0 0) (otherTables []))).map (·.payload.srHz) = some 65535#16 := by decide +kernel

/-- Two blocks with equal ROMs, different registers and different later cycles (EqualRequestsGetEqualPayloads). -/
theorem witness_equal_requests :
    (block [⟨0, 1, 0b10, 0x00000800⟩]).phase = .afterReset ∧ State.reset.phase = .afterReset
      ∧ (block [⟨0, 1, 0b10, 0x00000800⟩]).brRom = State.reset.brRom ∧ (block []).srRom = State.reset.srRom
      ∧ (block [⟨0, 1, 0b10, 0x00000800⟩]).cycles = ⟨0, 1, 0b10, 0x00000800⟩ :: []
      ∧ ({ State.reset with cycles := [⟨0, 1, 0b10, 0x00000800⟩, Cycle.idle] } : State).cycles
          = ⟨0, 1, 0b10, 0x00000800⟩ :: [Cycle.idle]
      ∧ (next? (step (block [⟨0, 1, 0b10, 0x00000800⟩]))).isSome = true := by decide +kernel

/-- The smallest legal positive entry and a VALID default entry (BitrateProductIsExact). -/
theorem witness_products :
    1 ≤ (brEntry State.reset.brRom (brAddr 0 1 1)).toInt ∧ (resolveBr State.reset.brRom 0 1 1).kind = 0b01#2 := by
  decide +kernel

/-- Canonical ROMs, the empty ones and ones with a cell (CanonicalRomsAreUnique). -/
theorem witness_canonical :
    Memory.wf 256 brDefault [] = true ∧ Memory.wf 256 brDefault [(0x11, 127)] = true
      ∧ Memory.wf 16 srDefault [] = true ∧ Memory.wf 16 srDefault [(0x0, 65535)] = true := by decide +kernel

/-- The default `BR_LUT` as an argument. -/
def defaultBrArgument : List (BitVec 8) := brDefaultTable.map (BitVec.ofInt 8)

/-- The default `SR_LUT` as an argument. -/
def defaultSrArgument : List (BitVec 16) := srDefaultTable.map (BitVec.ofNat 16)

/-- Legal and illegal table arguments (BuildAcceptsExactlyLegalTables). -/
theorem witness_table_arguments :
    LegalBrArgument defaultBrArgument ∧ LegalSrArgument defaultSrArgument
      ∧ ¬ LegalBrArgument [] ∧ ¬ LegalSrArgument [] := by
  refine ⟨⟨by decide +kernel, ?_⟩, ⟨by decide, ?_⟩, fun h => absurd h.1 (by decide), fun h => absurd h.1 (by decide)⟩
  · have key : ∀ v l : Fin 4, ∀ i : Fin 16, (defaultBrArgument[64 * v.val + 16 * l.val + i.val]?).all (fun e => decide (
        (e.toInt = -1 ∨ e.toInt = 0 ∨ (1 ≤ e.toInt ∧ e.toInt ≤ 127))
          ∧ (v.val = 1 ∨ l.val = 0 → e.toInt = -1) ∧ (v.val ≠ 1 → l.val ≠ 0 → i.val = 0 → e.toInt = 0)
          ∧ (v.val = 3 → l.val = 1 → i.val = 9 → e.toInt = 16)
          ∧ (v.val = 3 → l.val = 1 → i.val = 15 → e.toInt = -1))) = true := by decide +kernel
    intro v l i hv hl hi e he
    have h := key ⟨v, hv⟩ ⟨l, hl⟩ ⟨i, hi⟩
    rw [he] at h
    exact of_decide_eq_true h
  · have key : ∀ v i : Fin 4, (defaultSrArgument[4 * v.val + i.val]?).all (fun e => decide (
        (v.val = 1 ∨ i.val = 3 → e.toNat = 0) ∧ (v.val = 3 → i.val = 0 → e.toNat = 44100)
          ∧ (v.val = 0 → i.val = 2 → e.toNat = 8000))) = true := by decide +kernel
    intro v i hv hi e he
    have h := key ⟨v, hv⟩ ⟨i, hi⟩
    rw [he] at h
    exact of_decide_eq_true h

/-- A state other than reset that meets the invariant, with a next state (EveryEdgeKeepsTheInvariant). -/
theorem witness_invariant :
    ({ State.reset with cycles := [⟨0, 1, 0b11, 0⟩] } : State).Inv
      ∧ (next? (step { State.reset with cycles := [⟨0, 1, 0b11, 0⟩] })).isSome = true := by
  refine ⟨⟨by decide, fun _ => ⟨?_, by decide⟩⟩, by decide +kernel⟩
  simp [Payload.Consistent, Payload.BrConsistent, Payload.SrConsistent, Payload.NoHeader, State.reset]

/-- Output ports of every clause of SampleReadsValidResponsesOnly. -/
theorem witness_samples :
    sample ⟨0, stale⟩ = .ok none ∧ sample ⟨1, stale⟩ = .error .statusNeverProduced
      ∧ sample ⟨1, { stale with rspStatus := 0 }⟩ = .error .srKindNeverProduced
      ∧ sample ⟨1, Payload.zero⟩ = .ok (some Payload.zero) := ⟨rfl, rfl, rfl, rfl⟩

/-- A rendered text (RenderersAnswerOnlyWhatIsHeld, RenderersAnswerWhatIsHeld). -/
theorem witness_rendered : renderAfter .version "DECODE 0xFFFB9000" = some (.text "1") := by decide +kernel

/-- Operands at the widest value that fits and the first that does not (PseudoInstructionsAssemble). -/
theorem witness_operands : 4 ≤ 4 ∧ 16 ≤ 16 ∧ 2 ≤ 2 ∧ (Line.resolveBrFields 3 3 15).wf = true := by decide

end Sys2Proof.Tests
end

section
/-! PROOFS. The state update of one clock edge (spec/10_state.md R22 to R29): the three branches of an edge, then the kinds
of every answer, then the statements of the family. -/

namespace Sys2Proof.Machine

/-! ### The branches of one edge -/

/-- The first branch of R24: reset has priority, in every legal state. -/
theorem edge_of_rst {c : Cycle} {s : State} (hs : s.TablesLegal) (hrst : c.rst = 1) :
    edge c s = .next ((s.withResponse 0 Payload.zero).withPhase .afterReset) :=
  (if_pos hrst).trans (guardTables_of_legal hs _)

/-- The second branch of R24: the presented request is executed. -/
theorem edge_of_request {c : Cycle} (s : State) (hrst : c.rst = 0) (hreq : c.reqValid = 1) :
    edge c s = exec (decodePort c.reqOp c.reqData) s := by
  simp [edge, hrst, hreq]

/-- The third branch of R24: the idle write, once the block has been reset. -/
theorem edge_of_idle {c : Cycle} {s : State} (hs : s.Ready) (hrst : c.rst = 0) (hreq : c.reqValid = 0) :
    edge c s = .next (s.withResponse 0 s.payload) := by
  obtain ⟨hl, hp⟩ := hs
  have hidle : edge c s = idleEdge s := by simp [edge, hrst, hreq]
  rw [hidle, idleEdge_next_iff, State.withUpdate_afterReset hp]
  exact ⟨hl, rfl⟩

/-- A step that presents a request executes it, with the cycle consumed. -/
theorem step_of_request {s : State} {c : Cycle} {rest : List Cycle} (hc : s.cycles = c :: rest) (hrst : c.rst = 0)
    (hreq : c.reqValid = 1) : step s = exec (decodePort c.reqOp c.reqData) (s.withCycles rest) :=
  (step_of_cons hc).trans (edge_of_request _ hrst hreq)

/-- An idle step of a ready block writes `rsp_valid` and consumes the cycle; nothing else changes (R26). -/
theorem step_of_idle {s : State} {c : Cycle} {rest : List Cycle} (hs : s.Ready) (hc : s.cycles = c :: rest)
    (hrst : c.rst = 0) (hreq : c.reqValid = 0) : step s = .next { s with rspValid := 0, cycles := rest } :=
  (step_of_cons hc).trans (edge_of_idle (s := s.withCycles rest) hs hrst hreq)

/-! ### One lookup's result -/

/-- A legal `BR_ROM` holds no entry below -1 (R135). -/
theorem neg_one_le_brEntry {rom : List Host.Cell} (h : brLegal rom = true) (a : BitVec 8) :
    -1 ≤ (brEntry rom a).toInt :=
  ((brCellOk_iff _ _).mp (brCellOk_of_legal h a)).1

theorem resolveBr_kind_ne_none (rom : List Host.Cell) (v l : BitVec 2) (i : BitVec 4) :
    (resolveBr rom v l i).kind ≠ brNone := by
  unfold resolveBr
  rcases classifyBr_cases (brEntry rom (brAddr v l i)) with ⟨-, h⟩ | ⟨-, h⟩ | ⟨-, -, h⟩ <;> simp [h]

theorem resolveSr_kind_ne_none (rom : List (Nat × BitVec 16)) (v i : BitVec 2) :
    (resolveSr rom v i).kind ≠ srNone := by
  unfold resolveSr
  rcases classifySr_cases (srEntry rom (srAddr v i)) with ⟨-, h⟩ | ⟨-, h⟩ <;> simp [h]

/-- A VALID sample rate is the table entry itself (R145). -/
theorem resolveSr_hz_of_valid {rom : List (Nat × BitVec 16)} {v i : BitVec 2} (h : (resolveSr rom v i).kind = srValid) :
    (resolveSr rom v i).hz = srEntry rom (srAddr v i) := by
  unfold resolveSr at h ⊢
  rcases classifySr_cases (srEntry rom (srAddr v i)) with ⟨-, he⟩ | ⟨-, he⟩
  · simp [he] at h
  · rw [he]

/-- The bitrate result of a legal table's entry agrees in kind, raw entry and product (R140, R141). -/
theorem Payload.withBr_resolveBr_brConsistent {rom : List Host.Cell} (h : brLegal rom = true) (p : Payload)
    (v l : BitVec 2) (i : BitVec 4) : (p.withBr (resolveBr rom v l i)).BrConsistent := by
  have hmin := neg_one_le_brEntry h (brAddr v l i)
  unfold resolveBr
  generalize brEntry rom (brAddr v l i) = e at hmin ⊢
  rcases classifyBr_cases e with ⟨he, hr⟩ | ⟨he, hr⟩ | ⟨hm, hz, hr⟩
  · have hraw : e = 0xFF#8 := BitVec.eq_of_toInt_eq (by simpa using he)
    simpa [BrConsistent, hr] using hraw
  · have hraw : e = 0#8 := BitVec.eq_of_toInt_eq (by simpa using he)
    simpa [BrConsistent, hr] using hraw
  · obtain ⟨hbps, hmax⟩ := brBps_exact e (by omega)
    have hpos : e.toNat ≠ 0 := fun h0 => hz (by simp [BitVec.eq_of_toNat_eq (y := 0#8) h0])
    simp [BrConsistent, hr, hbps, hmax, Nat.one_le_iff_ne_zero, hpos]

/-- A VALID bitrate is the raw entry, as a signed number, times 8000 (R141). -/
theorem Payload.BrConsistent.brBps_of_valid {p : Payload} (h : p.BrConsistent) (hk : p.brKind = brValid) :
    (p.brBps.toNat : Int) = p.brRaw.toInt * 8000 := by
  obtain ⟨-, -, -, hvalid⟩ := h
  obtain ⟨-, hmax, hbps⟩ := hvalid hk
  rw [hbps, BitVec.toInt_eq_toNat_of_lt (by omega)]
  rfl

/-- Every kind but VALID leaves `br_bps` 0 (R28). -/
theorem Payload.BrConsistent.brBps_of_ne_valid {p : Payload} (h : p.BrConsistent) (hk : p.brKind ≠ brValid) :
    p.brBps = 0 := by
  obtain ⟨hnone, hany, hinvalid, -⟩ := h
  rcases op_cases p.brKind with h0 | h1 | h2 | h3
  · exact (hnone h0).2
  · exact absurd h1 hk
  · exact (hany h2).2
  · exact (hinvalid h3).2

/-- The sample-rate result of any entry agrees in kind and value (R145). -/
theorem Payload.withSr_resolveSr_srConsistent (p : Payload) (rom : List (Nat × BitVec 16)) (v i : BitVec 2) :
    (p.withSr (resolveSr rom v i)).SrConsistent := by
  unfold resolveSr
  rcases classifySr_cases (srEntry rom (srAddr v i)) with ⟨-, hr⟩ | ⟨he, hr⟩
  · simp [SrConsistent, hr]
  · simpa [SrConsistent, hr] using he

/-! ### The kinds of every answer -/

/-- DECODE with the sync pattern: the header and both resolutions (R100). -/
theorem decodePayload_sync (br : List Host.Cell) (sr : List (Nat × BitVec 16)) (h : Header) :
    decodePayload br sr Config.syncPattern h =
      (((Payload.zero.withStatus statusOk).withHeader h).withBr (resolveBr br h.version h.layer h.brIndex)).withSr
        (resolveSr sr h.version h.srIndex) :=
  if_pos rfl

/-- DECODE without the sync pattern leaves no field (R101). -/
theorem decodePayload_badSync (br : List Host.Cell) (sr : List (Nat × BitVec 16)) {sync : BitVec 11} (h : Header)
    (hs : sync ≠ Config.syncPattern) : decodePayload br sr sync h = raise statusInvalidSync :=
  if_neg hs

theorem Payload.zero_brConsistent : Payload.zero.BrConsistent := by simp [BrConsistent]

theorem Payload.zero_srConsistent : Payload.zero.SrConsistent := by simp [SrConsistent]

/-- The bitrate fields of every answer agree (R28, R140, R141). Labelling an answer with its operation and writing the other
result leave them as they are. -/
theorem answer_brConsistent {br : List Host.Cell} (hl : brLegal br = true) (sr : List (Nat × BitVec 16)) (i : Instr) :
    (answer br sr i).BrConsistent := by
  cases i with
  | decode sync h =>
    change (decodePayload br sr sync h).BrConsistent
    by_cases hs : sync = Config.syncPattern
    · rw [hs, decodePayload_sync]
      exact Payload.withBr_resolveBr_brConsistent hl ((Payload.zero.withStatus statusOk).withHeader h) ..
    · rw [decodePayload_badSync br sr h hs]
      exact Payload.zero_brConsistent
  | resolveBr v l j => exact Payload.withBr_resolveBr_brConsistent hl (Payload.zero.withStatus statusOk) v l j
  | resolveSr v j => exact Payload.zero_brConsistent
  | op3 => exact Payload.zero_brConsistent

/-- The sample-rate fields of every answer agree, and no answer has the kind 0b11 (R29, R145). -/
theorem answer_srConsistent (br : List Host.Cell) (sr : List (Nat × BitVec 16)) (i : Instr) :
    (answer br sr i).SrConsistent := by
  cases i with
  | decode sync h =>
    change (decodePayload br sr sync h).SrConsistent
    by_cases hs : sync = Config.syncPattern
    · rw [hs, decodePayload_sync]
      exact Payload.withSr_resolveSr_srConsistent ..
    · rw [decodePayload_badSync br sr h hs]
      exact Payload.zero_srConsistent
  | resolveBr v l j => exact Payload.zero_srConsistent
  | resolveSr v j => exact Payload.withSr_resolveSr_srConsistent (Payload.zero.withStatus statusOk) sr v j
  | op3 => exact Payload.zero_srConsistent

/-- No bitrate is resolved exactly by an error or RESOLVE.SR (R28). -/
theorem answer_brKind_eq_none_iff (br : List Host.Cell) (sr : List (Nat × BitVec 16)) (i : Instr) :
    (answer br sr i).brKind = brNone ↔ (answer br sr i).rspStatus ≠ statusOk ∨ ∃ v j, i = .resolveSr v j := by
  cases i with
  | decode sync h =>
    by_cases hs : sync = Config.syncPattern
    · simpa [answer, hs, decodePayload_sync] using resolveBr_kind_ne_none br h.version h.layer h.brIndex
    · simp [answer, decodePayload_badSync br sr h hs, raise]
  | resolveBr v l j => simpa [answer, resolveBrPayload] using resolveBr_kind_ne_none br v l j
  | resolveSr v j => simp [answer, resolveSrPayload]
  | op3 => simp [answer, op3Payload, raise]

/-- No sample rate is resolved exactly by an error or RESOLVE.BR (R29). -/
theorem answer_srKind_eq_none_iff (br : List Host.Cell) (sr : List (Nat × BitVec 16)) (i : Instr) :
    (answer br sr i).srKind = srNone ↔ (answer br sr i).rspStatus ≠ statusOk ∨ ∃ v l j, i = .resolveBr v l j := by
  cases i with
  | decode sync h =>
    by_cases hs : sync = Config.syncPattern
    · simpa [answer, hs, decodePayload_sync] using resolveSr_kind_ne_none sr h.version h.srIndex
    · simp [answer, decodePayload_badSync br sr h hs, raise]
  | resolveBr v l j => simp [answer, resolveBrPayload]
  | resolveSr v j => simpa [answer, resolveSrPayload] using resolveSr_kind_ne_none sr v j
  | op3 => simp [answer, op3Payload, raise]

/-- DECODE's VALID sample rate is the entry of its own version and index. -/
theorem answer_decode_srHz_of_valid {br : List Host.Cell} {sr : List (Nat × BitVec 16)} {sync : BitVec 11} {h : Header}
    (hk : (answer br sr (.decode sync h)).srKind = srValid) :
    (answer br sr (.decode sync h)).srHz = srEntry sr (srAddr h.version h.srIndex) := by
  change (decodePayload br sr sync h).srKind = srValid at hk
  change (decodePayload br sr sync h).srHz = _
  by_cases hs : sync = Config.syncPattern
  · rw [hs, decodePayload_sync] at hk ⊢
    exact resolveSr_hz_of_valid hk
  · simp [decodePayload_badSync br sr h hs, raise] at hk

/-! ### The statements -/

/-- Settles O10, by the three branches of the edge. -/
theorem edgeFollowsUpdateRule : Obligations.EdgeFollowsUpdateRule := by
  intro s c rest hl hc
  refine ⟨fun hrst => ?_, fun hp hrst hreq => ?_, fun hp hrst hreq => step_of_idle ⟨hl, hp⟩ hc hrst hreq⟩
  · exact (step_of_cons hc).trans (edge_of_rst (s := s.withCycles rest) hl hrst)
  · have hready : (s.withCycles rest).Ready := ⟨hl, hp⟩
    exact ⟨_, (step_of_request hc hrst hreq).trans (exec_of_ready _ hready), rfl, by simp⟩

/-- Settles O30: the answer's bitrate fields agree because the edge happens only with legal tables. -/
theorem bitrateKindOfEveryResponse : Obligations.BitrateKindOfEveryResponse := by
  intro s t i hp h
  obtain ⟨⟨hl, -⟩, rfl⟩ := (exec_next_iff_of_afterReset hp).mp h
  have hcons := answer_brConsistent hl s.srRom i
  exact ⟨answer_brKind_eq_none_iff .., hcons.brBps_of_valid, hcons.brBps_of_ne_valid, beq_iff_eq, beq_iff_eq⟩

/-- Settles O31, by the agreement of the answer's sample-rate fields and the entry each operation looks up. -/
theorem sampleRateKindOfEveryResponse : Obligations.SampleRateKindOfEveryResponse := by
  intro s t i hp h
  obtain ⟨-, rfl⟩ := (exec_next_iff_of_afterReset hp).mp h
  obtain ⟨hne3, -, hzero⟩ := answer_srConsistent s.brRom s.srRom i
  refine ⟨answer_srKind_eq_none_iff .., ?_, ?_, hzero, beq_iff_eq, hne3⟩
  · rintro sync hd rfl hk
    exact answer_decode_srHz_of_valid hk
  · rintro v j rfl hk
    exact resolveSr_hz_of_valid hk

/-- Settles O33: both steps write the one `answer`, a function of the ROMs and the cycle. -/
theorem equalRequestsGetEqualPayloads : Obligations.EqualRequestsGetEqualPayloads := by
  intro s s' t c rest rest' hbr hsr hp hp' hc hc' hrst hreq h
  rw [step_of_request hc hrst hreq] at h
  obtain ⟨⟨hbl, hsl⟩, rfl⟩ := (exec_next_iff_of_afterReset (s := s.withCycles rest) hp).mp h
  have hready : (s'.withCycles rest').Ready := ⟨⟨hbr ▸ hbl, hsr ▸ hsl⟩, hp'⟩
  refine ⟨_, (step_of_request hc' hrst hreq).trans (exec_of_ready _ hready), ?_, rfl⟩
  simp [hbr, hsr]

/-- Settles O12, by the idle step. -/
theorem idleEdgeHoldsPayload : Obligations.IdleEdgeHoldsPayload := by
  intro s c rest hs hc hrst hreq
  exact ⟨_, step_of_idle hs hc hrst hreq, rfl, rfl, rfl, rfl, rfl, hs.2, rfl⟩

/-- Settles O34: the ports are projections of the registers, which the host's cycles are no part of. -/
theorem outputPortsAreTheRegisters : Obligations.OutputPortsAreTheRegisters :=
  fun _ _ => ⟨rfl, rfl, rfl⟩

end Sys2Proof.Machine
end

section
/-! PROOFS. The ROM addresses of a lookup (spec/20_memory.md R51, R52): their values, and the lookup that each address
belongs to. -/

namespace Sys2Proof.Machine

theorem brAddr_toNat (v l : BitVec 2) (i : BitVec 4) :
    (brAddr v l i).toNat = 64 * v.toNat + 16 * l.toNat + i.toNat := by
  have h : (brAddr v l i).toNat = (v.toNat * 2 ^ 2 + l.toNat) * 2 ^ 4 + i.toNat := by
    rw [← toNat_append_eq, ← toNat_append_eq, brAddr]
  omega

theorem srAddr_toNat (v i : BitVec 2) : (srAddr v i).toNat = 4 * v.toNat + i.toNat := by
  have h : (srAddr v i).toNat = v.toNat * 2 ^ 2 + i.toNat := toNat_append_eq v i
  omega

/-- The lookup of a `BR_ROM` address: its slices in the order `[version][layer][index]` of R51. -/
theorem brAddr_slices (a : BitVec 8) :
    brAddr (a.extractLsb' 6 2) (a.extractLsb' 4 2) (a.extractLsb' 0 4) = a := by
  apply BitVec.eq_of_toNat_eq
  simp only [brAddr_toNat, toNat_slice]
  omega

/-- The lookup of an `SR_ROM` address: its slices in the order `[version][index]` of R52. -/
theorem srAddr_slices (a : BitVec 4) : srAddr (a.extractLsb' 2 2) (a.extractLsb' 0 2) = a := by
  apply BitVec.eq_of_toNat_eq
  simp only [srAddr_toNat, toNat_slice]
  omega

/-- Settles O35: the addresses are the packed operands, and slicing an address finds its lookup. -/
theorem romAddresses : Obligations.RomAddresses :=
  ⟨brAddr_toNat, fun a => ⟨_, _, _, brAddr_slices a⟩, brDefaultTable_length,
    srAddr_toNat, fun a => ⟨_, _, srAddr_slices a⟩, srDefaultTable_length⟩

end Sys2Proof.Machine
end

section
/-! PROOFS. The encoding (spec/30_encoding.md R70 to R83): slices under a mask, the encoder undone by the decoder, the numbers
the assembler builds, then the status of every answer, then the statements of the family. -/

namespace Sys2Proof

/-! ### Slices and masks -/

/-- A slice is the value its number says. -/
theorem slice_eq_of_toNat {n lo len : Nat} {w : BitVec n} {x : BitVec len} (h : w.toNat / 2 ^ lo % 2 ^ len = x.toNat) :
    w.extractLsb' lo len = x :=
  BitVec.eq_of_toNat_eq ((toNat_slice w lo len).trans h)

/-- Words that agree under a mask agree on every slice that the mask covers. -/
theorem slice_eq_of_and_eq {n : Nat} {x y mask : BitVec n} (lo len : Nat)
    (hmask : mask.extractLsb' lo len = BitVec.allOnes len) (h : x &&& mask = y &&& mask) :
    x.extractLsb' lo len = y.extractLsb' lo len := by
  have hslice : (x &&& mask).extractLsb' lo len = (y &&& mask).extractLsb' lo len := by rw [h]
  simpa [BitVec.extractLsb'_and, hmask] using hslice

/-- The sync mask keeps the top eleven bits (R77). -/
theorem and_syncMask (w : HeaderWord) : w &&& 0xFFE00000#32 = w.extractLsb' 21 11 ++ 0#21 := by
  have hw : w.extractLsb' 21 11 ++ w.extractLsb' 0 21 = w := BitVec.extractLsb'_append_extractLsb' (w := 11)
  have hmask : 0xFFE00000#32 = BitVec.allOnes 11 ++ 0#21 := by decide
  calc w &&& 0xFFE00000#32
      = (w.extractLsb' 21 11 ++ w.extractLsb' 0 21) &&& (BitVec.allOnes 11 ++ 0#21) := by rw [hw, hmask]
    _ = w.extractLsb' 21 11 ++ 0#21 := by rw [BitVec.and_append, BitVec.and_allOnes, BitVec.and_zero]

/-- The two forms of the sync test (R77). -/
theorem slice_eq_syncPattern_iff (w : HeaderWord) :
    w.extractLsb' 21 11 = Config.syncPattern ↔ w &&& 0xFFE00000#32 = 0xFFE00000#32 := by
  have hmask : 0xFFE00000#32 = Config.syncPattern ++ 0#21 := by decide
  rw [and_syncMask, hmask]
  exact (BitVec.append_left_inj 0#21).symm

/-! ### The decoder after the encoder -/

/-- The twelve fields are read back from their header word (R74, R75). -/
theorem Header.ofWord_toWord (sync : BitVec 11) (h : Header) : Header.ofWord (h.toWord sync) = h := by
  have hw := Header.toWord_toNat sync h
  unfold Header.ofWord
  congr 1 <;> exact slice_eq_of_toNat (by omega)

/-- The sync bits are read back from their header word (R74). -/
theorem slice_sync_toWord (sync : BitVec 11) (h : Header) : (h.toWord sync).extractLsb' 21 11 = sync := by
  have hw := Header.toWord_toNat sync h
  exact slice_eq_of_toNat (by omega)

/-- Every instruction is read back from its operation code and its data word (R71 to R74). -/
theorem decodePort_op_data (i : Instr) : decodePort i.op i.data = i := by
  cases i with
  | decode sync h => exact congrArg₂ Instr.decode (slice_sync_toWord sync h) (Header.ofWord_toWord sync h)
  | resolveBr v l j =>
    have hd := Instr.resolveBr_data_toNat v l j
    simp only [Instr.op, decodePort_resolveBr, Instr.resolveBr.injEq]
    exact ⟨slice_eq_of_toNat (by omega), slice_eq_of_toNat (by omega), slice_eq_of_toNat (by omega)⟩
  | resolveSr v j =>
    have hd := Instr.resolveSr_data_toNat v j
    simp only [Instr.op, decodePort_resolveSr, Instr.resolveSr.injEq]
    exact ⟨slice_eq_of_toNat (by omega), slice_eq_of_toNat (by omega)⟩
  | op3 => rfl

/-! ### The assembler -/

/-- A field's value fits the field (R83). -/
@[simp] theorem fits_toNat {width : Nat} (x : BitVec width) : fits width x.toNat = true := decide_eq_true x.isLt

theorem assemble_of_wf {line : Line} (h : line.wf = true) : assemble line = .ok line.inputs := if_pos h

theorem assemble_of_not_wf {line : Line} (h : ¬ line.wf = true) : assemble line = .error .operandTooWide := if_neg h

theorem Line.resolveBrFields_wf_iff (v l i : Nat) : (Line.resolveBrFields v l i).wf = true ↔ v < 4 ∧ l < 4 ∧ i < 16 := by
  simp [Line.wf, fits, and_assoc]

theorem Line.resolveSrFields_wf_iff (v i : Nat) : (Line.resolveSrFields v i).wf = true ↔ v < 4 ∧ i < 4 := by
  simp [Line.wf, fits]

theorem Line.decodeFields_wf_iff (v l p bri sri pad prv m x c o e : Nat) :
    (Line.decodeFields v l p bri sri pad prv m x c o e).wf = true ↔
      v < 4 ∧ l < 4 ∧ p < 2 ∧ bri < 16 ∧ sri < 4 ∧ pad < 2 ∧ prv < 2 ∧ m < 4 ∧ x < 4 ∧ c < 2 ∧ o < 2 ∧ e < 4 := by
  simp [Line.wf, fits, and_assoc]

/-- R83's shifts and disjunctions for `RESOLVE.BR v, l, i` are the encoder's concatenation. -/
theorem resolveBrData_toNat (v l : BitVec 2) (i : BitVec 4) :
    resolveBrData v.toNat l.toNat i.toNat = (Instr.resolveBr v l i).data.toNat := by
  refine .trans ?_ (BitVec.toNat_append _ 0#12).symm
  simp only [BitVec.toNat_append]
  simp [resolveBrData, Nat.shiftLeft_or_distrib, ← Nat.shiftLeft_add]

/-- R83's shifts and disjunctions for `RESOLVE.SR v, i` are the encoder's concatenation. -/
theorem resolveSrData_toNat (v i : BitVec 2) : resolveSrData v.toNat i.toNat = (Instr.resolveSr v i).data.toNat := by
  refine .trans ?_ (BitVec.toNat_append _ 0#10).symm
  simp only [BitVec.toNat_append]
  simp [resolveSrData, Nat.shiftLeft_or_distrib, ← Nat.shiftLeft_add]

/-- R83's shifts and disjunctions for `DECODE.F` are the encoder's concatenation under a valid sync. -/
theorem decodeData_toNat (h : Header) :
    decodeData h.version.toNat h.layer.toNat h.protection.toNat h.brIndex.toNat h.srIndex.toNat h.padding.toNat
        h.privateFlag.toNat h.mode.toNat h.modeExt.toNat h.copyright.toNat h.original.toNat h.emphasis.toNat
      = (h.toWord Config.syncPattern).toNat := by
  refine .trans ?_ (BitVec.toNat_append _ h.emphasis).symm
  simp only [BitVec.toNat_append]
  simp [decodeData, Config.syncPattern, Nat.shiftLeft_or_distrib, ← Nat.shiftLeft_add]

/-- `RESOLVE.BR v, l, i` presents the encoder's request (R83). -/
theorem assemble_resolveBrFields (v l : BitVec 2) (i : BitVec 4) :
    assemble (.resolveBrFields v.toNat l.toNat i.toNat) = .ok (.request 0b01 (Instr.resolveBr v l i).data) := by
  rw [assemble_of_wf (by simp [Line.wf]), Line.inputs, resolveBrData_toNat, BitVec.ofNat_toNat, BitVec.setWidth_eq]

/-- `RESOLVE.SR v, i` presents the encoder's request (R83). -/
theorem assemble_resolveSrFields (v i : BitVec 2) :
    assemble (.resolveSrFields v.toNat i.toNat) = .ok (.request 0b10 (Instr.resolveSr v i).data) := by
  rw [assemble_of_wf (by simp [Line.wf]), Line.inputs, resolveSrData_toNat, BitVec.ofNat_toNat, BitVec.setWidth_eq]

/-- `DECODE.F` presents the header word of its fields under a valid sync (R83). -/
theorem assemble_decodeFields (h : Header) :
    assemble (.decodeFields h.version.toNat h.layer.toNat h.protection.toNat h.brIndex.toNat h.srIndex.toNat
        h.padding.toNat h.privateFlag.toNat h.mode.toNat h.modeExt.toNat h.copyright.toNat h.original.toNat
        h.emphasis.toNat) = .ok (.request 0b00 (h.toWord Config.syncPattern)) := by
  rw [assemble_of_wf (by simp [Line.wf]), Line.inputs, decodeData_toNat, BitVec.ofNat_toNat, BitVec.setWidth_eq]

end Sys2Proof

namespace Sys2Proof.Machine

/-! ### The status of every answer -/

@[simp] theorem answer_decode_rspStatus (br : List Host.Cell) (sr : List (Nat × BitVec 16)) (sync : BitVec 11) (h : Header) :
    (answer br sr (.decode sync h)).rspStatus = if sync = Config.syncPattern then statusOk else statusInvalidSync := by
  change (decodePayload br sr sync h).rspStatus = _
  split
  next hs => rw [hs, decodePayload_sync]; rfl
  next hs => rw [decodePayload_badSync br sr h hs]; rfl

@[simp] theorem answer_resolveBr_rspStatus (br : List Host.Cell) (sr : List (Nat × BitVec 16)) (v l : BitVec 2)
    (j : BitVec 4) : (answer br sr (.resolveBr v l j)).rspStatus = statusOk := rfl

@[simp] theorem answer_resolveSr_rspStatus (br : List Host.Cell) (sr : List (Nat × BitVec 16)) (v j : BitVec 2) :
    (answer br sr (.resolveSr v j)).rspStatus = statusOk := rfl

@[simp] theorem answer_op3_rspStatus (br : List Host.Cell) (sr : List (Nat × BitVec 16)) :
    (answer br sr .op3).rspStatus = statusIllegalOp := rfl

/-- DECODE's status is OK exactly with a valid sync (R77, R100). -/
theorem answer_decode_rspStatus_eq_ok_iff (br : List Host.Cell) (sr : List (Nat × BitVec 16)) (sync : BitVec 11)
    (h : Header) : (answer br sr (.decode sync h)).rspStatus = statusOk ↔ sync = Config.syncPattern := by
  rw [answer_decode_rspStatus]
  split <;> simp [*]

/-- ILLEGAL_OP is the status of the reserved operation code and of no other (R78, R202). -/
theorem answer_rspStatus_eq_illegalOp_iff (br : List Host.Cell) (sr : List (Nat × BitVec 16)) (i : Instr) :
    (answer br sr i).rspStatus = statusIllegalOp ↔ i.op = 0b11#2 := by
  cases i with
  | decode sync h =>
    rw [answer_decode_rspStatus]
    split <;> simp [Instr.op]
  | resolveBr v l j => simp [Instr.op]
  | resolveSr v j => simp [Instr.op]
  | op3 => simp [Instr.op]

/-! ### The statements -/

/-- Settles O4, by the value of each slice. -/
theorem headerFieldsAreSlices : Obligations.HeaderFieldsAreSlices := by
  intro w
  have hsync : (w.extractLsb' 21 11).toNat = w.toNat / 2 ^ 21 := by
    rw [toNat_slice]
    omega
  exact ⟨_, _, decodePort_decode w, hsync, by simpa using Header.ofWord_toNat w⟩

/-- Settles O5: each operand is a slice, and the masks cover the slices. -/
theorem resolverOperandsAndIgnoredBits : Obligations.ResolverOperandsAndIgnoredBits := by
  refine ⟨fun d => ?_, fun d => ?_, fun d d' h => ?_, fun d d' h => ?_⟩
  · exact ⟨_, _, _, decodePort_resolveBr d, toNat_slice .., toNat_slice .., toNat_slice ..⟩
  · exact ⟨_, _, decodePort_resolveSr d, toNat_slice .., toNat_slice ..⟩
  · rw [decodePort_resolveBr, decodePort_resolveBr, slice_eq_of_and_eq 19 2 (by decide) h,
      slice_eq_of_and_eq 17 2 (by decide) h, slice_eq_of_and_eq 12 4 (by decide) h]
  · rw [decodePort_resolveSr, decodePort_resolveSr, slice_eq_of_and_eq 19 2 (by decide) h,
      slice_eq_of_and_eq 10 2 (by decide) h]

/-- Settles O20: the mask keeps the slice, and DECODE's status is decided by the slice. -/
theorem syncIsTheMaskedPrefix : Obligations.SyncIsTheMaskedPrefix := by
  intro s w hs
  refine ⟨slice_eq_syncPattern_iff w, _, exec_of_ready _ hs, ?_⟩
  exact (answer_decode_rspStatus_eq_ok_iff ..).trans (slice_eq_syncPattern_iff w)

/-- Settles O25: OP3's answer is the raised error, and the status of an answer tells whether it is OP3's. -/
theorem reservedOpIsIllegal : Obligations.ReservedOpIsIllegal := by
  intro s d hs
  refine ⟨exec_of_ready .op3 hs, fun op t h => ?_⟩
  obtain ⟨-, rfl⟩ := (exec_next_iff_of_afterReset hs.2).mp h
  simpa using answer_rspStatus_eq_illegalOp_iff s.brRom s.srRom (decodePort op d)

/-- Settles O55: the assembler's data words are the encoder's, and its width check is the bounds of the fields. -/
theorem pseudoInstructionsAssemble : Obligations.PseudoInstructionsAssemble := by
  refine ⟨fun v l i => ?_, fun v i => ?_, fun h => ?_, fun v l i hwide => ?_, fun v i hwide => ?_,
    fun v l p bri sri pad prv m x c o e hwide => ?_, rfl⟩
  · exact ⟨_, assemble_resolveBrFields v l i, rfl, decodePort_op_data (.resolveBr v l i)⟩
  · exact ⟨_, assemble_resolveSrFields v i, rfl, decodePort_op_data (.resolveSr v i)⟩
  · exact ⟨_, assemble_decodeFields h, rfl, decodePort_op_data (.decode Config.syncPattern h)⟩
  · apply assemble_of_not_wf
    rw [Line.resolveBrFields_wf_iff]
    omega
  · apply assemble_of_not_wf
    rw [Line.resolveSrFields_wf_iff]
    omega
  · apply assemble_of_not_wf
    rw [Line.decodeFields_wf_iff]
    omega

end Sys2Proof.Machine
end

section
/-! PROOFS. DECODE (spec/40_decode.md R100 to R103): the result of one lookup in a payload, the two answers of DECODE, the
stated table cells, then the statements of the family. -/

namespace Sys2Proof.Machine

/-! ### A lookup's result in a payload -/

/-- The bitrate fields of a lookup are the result of its entry; the product is exact in a legal table (R140, R141). -/
theorem Payload.withBr_resolveBr_isBrResult {rom : List Host.Cell} (h : brLegal rom = true) (p : Payload) (v l : BitVec 2)
    (i : BitVec 4) : (p.withBr (resolveBr rom v l i)).IsBrResult (brEntry rom (brAddr v l i)) := by
  have hcons := p.withBr_resolveBr_brConsistent h v l i
  unfold resolveBr at hcons ⊢
  generalize brEntry rom (brAddr v l i) = e at hcons ⊢
  rcases classifyBr_cases e with ⟨he, hr⟩ | ⟨he, hr⟩ | ⟨hm, hz, hr⟩
  · simp [IsBrResult, hr, he]
  · simp [IsBrResult, hr, he]
  · rw [hr] at hcons ⊢
    exact ⟨rfl, (absurd · hm), (absurd · hz), fun _ _ => ⟨rfl, hcons.brBps_of_valid rfl⟩⟩

/-- The sample-rate fields of a lookup are the result of its entry (R145). -/
theorem Payload.withSr_resolveSr_isSrResult (p : Payload) (rom : List (Nat × BitVec 16)) (v i : BitVec 2) :
    (p.withSr (resolveSr rom v i)).IsSrResult (srEntry rom (srAddr v i)) := by
  unfold resolveSr
  rcases classifySr_cases (srEntry rom (srAddr v i)) with ⟨he, hr⟩ | ⟨he, hr⟩
  · rw [hr]
    exact ⟨fun _ => ⟨rfl, rfl⟩, fun h => absurd he h⟩
  · rw [hr]
    exact ⟨fun h => absurd h he, fun _ => ⟨rfl, rfl⟩⟩

@[simp] theorem Payload.withOp_isBrResult_iff (p : Payload) (op : BitVec 2) (e : BitVec 8) :
    (p.withOp op).IsBrResult e ↔ p.IsBrResult e := .rfl

@[simp] theorem Payload.withSr_isBrResult_iff (p : Payload) (r : SrResult) (e : BitVec 8) :
    (p.withSr r).IsBrResult e ↔ p.IsBrResult e := .rfl

@[simp] theorem Payload.withOp_isSrResult_iff (p : Payload) (op : BitVec 2) (e : BitVec 16) :
    (p.withOp op).IsSrResult e ↔ p.IsSrResult e := .rfl

/-! ### The two answers of DECODE -/

/-- DECODE without the sync pattern raises INVALID_SYNC (R101). -/
theorem answer_decode_badSync (br : List Host.Cell) (sr : List (Nat × BitVec 16)) {sync : BitVec 11} (h : Header)
    (hs : sync ≠ Config.syncPattern) :
    answer br sr (.decode sync h) = { Payload.zero with rspOp := 0b00, rspStatus := 0b01 } :=
  congrArg (·.withOp 0b00) (decodePayload_badSync br sr h hs)

/-- DECODE with the sync pattern: the header and both resolutions, labelled with the operation code (R100). -/
theorem answer_decode_sync (br : List Host.Cell) (sr : List (Nat × BitVec 16)) (h : Header) :
    answer br sr (.decode Config.syncPattern h) =
      ((((Payload.zero.withStatus statusOk).withHeader h).withBr (resolveBr br h.version h.layer h.brIndex)).withSr
        (resolveSr sr h.version h.srIndex)).withOp 0b00 :=
  congrArg (·.withOp 0b00) (decodePayload_sync br sr h)

/-- DECODE's bitrate fields: the label and the sample rate leave them as the lookup wrote them (R103). -/
theorem answer_decode_isBrResult {br : List Host.Cell} (hl : brLegal br = true) (sr : List (Nat × BitVec 16)) (h : Header) :
    (answer br sr (.decode Config.syncPattern h)).IsBrResult (brEntry br (brAddr h.version h.layer h.brIndex)) := by
  rw [answer_decode_sync, Payload.withOp_isBrResult_iff, Payload.withSr_isBrResult_iff]
  exact Payload.withBr_resolveBr_isBrResult hl ..

/-- DECODE's sample-rate fields: the label leaves them as the lookup wrote them (R103). -/
theorem answer_decode_isSrResult (br : List Host.Cell) (sr : List (Nat × BitVec 16)) (h : Header) :
    (answer br sr (.decode Config.syncPattern h)).IsSrResult (srEntry sr (srAddr h.version h.srIndex)) := by
  rw [answer_decode_sync, Payload.withOp_isSrResult_iff]
  exact Payload.withSr_resolveSr_isSrResult ..

/-! ### The stated cells of the rule's example -/

/-- Index 9 of `(MPEG_1, LAYER_3)` is 16 in every legal `BR_ROM` (R134). -/
theorem brEntry_mpeg1_layer3_nine {rom : List Host.Cell} (h : brLegal rom = true) :
    (brEntry rom (brAddr 0b11 0b01 9)).toInt = 16 := by
  obtain ⟨-, -, -, hcell, -⟩ := (brCellOk_iff _ _).mp (brCellOk_of_legal h (brAddr 0b11 0b01 9))
  exact hcell rfl

/-- Index 0 of MPEG_1 is 44100 in every legal `SR_ROM` (R138). -/
theorem srEntry_mpeg1_zero {rom : List (Nat × BitVec 16)} (h : srLegal rom = true) :
    srEntry rom (srAddr 0b11 0b00) = 44100 := by
  obtain ⟨-, hcell, -⟩ := (srCellOk_iff _ _).mp (srCellOk_of_legal h (srAddr 0b11 0b00))
  exact BitVec.eq_of_toNat_eq (hcell rfl)

/-- The result of the entry 16 is VALID at 128000 bits per second. -/
theorem Payload.IsBrResult.of_sixteen {p : Payload} {e : BitVec 8} (h : p.IsBrResult e) (he : e.toInt = 16) :
    p.brKind = 0b01#2 ∧ p.brBps = 128000 := by
  obtain ⟨-, -, -, hvalid⟩ := h
  obtain ⟨hkind, hbps⟩ := hvalid (by omega) (by omega)
  exact ⟨hkind, BitVec.eq_of_toNat_eq (by simp; omega)⟩

/-- The rule's example: what DECODE answers to `0xFFFB9000` under every legal table (R100). -/
theorem answer_decode_example {br : List Host.Cell} {sr : List (Nat × BitVec 16)} (hbr : brLegal br = true)
    (hsr : srLegal sr = true) {p : Payload} (hp : answer br sr (decodePort 0b00#2 0xFFFB9000#32) = p) :
    p.fVersion = 0b11#2 ∧ p.fLayer = 0b01#2 ∧ p.fProtection = 1 ∧ p.fBrIndex = 9
      ∧ p.brKind = 0b01#2 ∧ p.brBps = 128000 ∧ p.srKind = 0b01#2 ∧ p.srHz = 44100 := by
  subst hp
  obtain ⟨hkind, hbps⟩ :=
    (answer_decode_isBrResult hbr sr (.ofWord 0xFFFB9000)).of_sixteen (brEntry_mpeg1_layer3_nine hbr)
  obtain ⟨-, hvalid⟩ := answer_decode_isSrResult br sr (.ofWord 0xFFFB9000)
  have hentry : srEntry sr (srAddr (Header.ofWord 0xFFFB9000).version (Header.ofWord 0xFFFB9000).srIndex) = 44100 :=
    srEntry_mpeg1_zero hsr
  rw [hentry] at hvalid
  obtain ⟨hsrKind, hhz⟩ := hvalid (by decide)
  exact ⟨rfl, rfl, rfl, rfl, hkind, hbps, hsrKind, hhz⟩

/-! ### The statements -/

/-- Settles O18: the sync decides between the two answers of DECODE, and the example reads cells that every legal table
states. -/
theorem decodeAnswers : Obligations.DecodeAnswers := by
  intro s w hs
  refine ⟨_, exec_of_ready _ hs, fun hbad => ?_, fun hsync => ?_, ?_⟩
  · exact answer_decode_badSync _ _ _ hbad
  · have hw : decodePort 0b00#2 w = .decode Config.syncPattern (Header.ofWord w) :=
      congrArg (Instr.decode · (Header.ofWord w)) hsync
    have hbr := answer_decode_isBrResult hs.1.1 s.srRom (Header.ofWord w)
    have hsr := answer_decode_isSrResult s.brRom s.srRom (Header.ofWord w)
    rw [hw]
    rw [answer_decode_sync] at hbr hsr ⊢
    exact ⟨rfl, rfl, rfl, rfl, rfl, rfl, rfl, rfl, rfl, rfl, rfl, rfl, rfl, rfl, hbr, hsr⟩
  · rintro rfl
    exact answer_decode_example hs.1.1 hs.1.2 rfl

/-- Settles O19: the sync slice of the word is the pattern, which alone decides the status. -/
theorem validSyncNeverFails : Obligations.ValidSyncNeverFails := by
  intro s x hs
  have hsync : (Config.syncPattern ++ x).extractLsb' 21 11 = Config.syncPattern := by
    simpa using slice_append_high Config.syncPattern x 21 11 le_rfl
  exact ⟨_, exec_of_ready _ hs, (answer_decode_rspStatus_eq_ok_iff ..).mpr hsync⟩

end Sys2Proof.Machine
end

section
/-! PROOFS. The resolvers (spec/41_resolve.md R130 to R155): the cells that every legal table keeps, the result of a stated
entry, the two answers of the resolvers, then the statements of the family. -/

namespace Sys2Proof.Machine

/-! ### The stated cells of a legal table -/

/-- The reserved rows of the `BR_ROM` are the addresses of a reserved version or layer (R132). -/
theorem brAddr_reserved_iff (v l : BitVec 2) (i : BitVec 4) :
    ((brAddr v l i).toNat / 64 = 1 ∨ (brAddr v l i).toNat / 16 % 4 = 0) ↔ v = 0b01#2 ∨ l = 0b00#2 := by
  rw [brAddr_toNat, BitVec.toNat_eq, BitVec.toNat_eq, BitVec.toNat_ofNat, BitVec.toNat_ofNat]
  omega

/-- The stated zero cells of the `SR_ROM` are the addresses of the reserved version and of index 3 (R137). -/
theorem srAddr_reserved_iff (v i : BitVec 2) :
    ((srAddr v i).toNat / 4 = 1 ∨ (srAddr v i).toNat % 4 = 3) ↔ v = 0b01#2 ∨ i = 0b11#2 := by
  rw [srAddr_toNat, BitVec.toNat_eq, BitVec.toNat_eq, BitVec.toNat_ofNat, BitVec.toNat_ofNat]
  omega

/-- A reserved version or layer reads -1 in every legal `BR_ROM` (R132). -/
theorem brEntry_of_reserved {rom : List Host.Cell} (h : brLegal rom = true) {v l : BitVec 2} (i : BitVec 4)
    (hres : v = 0b01#2 ∨ l = 0b00#2) : (brEntry rom (brAddr v l i)).toInt = -1 := by
  obtain ⟨-, hcell, -⟩ := (brCellOk_iff _ _).mp (brCellOk_of_legal h (brAddr v l i))
  exact hcell ((brAddr_reserved_iff v l i).mpr hres)

/-- Index 0 of every other row reads 0 in every legal `BR_ROM` (R133). -/
theorem brEntry_of_index_zero {rom : List Host.Cell} (h : brLegal rom = true) {v l : BitVec 2} {i : BitVec 4}
    (hv : v ≠ 0b01#2) (hl : l ≠ 0b00#2) (hi : i = 0#4) : (brEntry rom (brAddr v l i)).toInt = 0 := by
  obtain ⟨-, -, hcell, -⟩ := (brCellOk_iff _ _).mp (brCellOk_of_legal h (brAddr v l i))
  refine hcell (mt (brAddr_reserved_iff v l i).mp (not_or.mpr ⟨hv, hl⟩)) ?_
  rw [brAddr_toNat, hi, BitVec.toNat_ofNat]
  omega

/-- Index 15 of `(MPEG_1, LAYER_3)` is -1 in every legal `BR_ROM` (R134). -/
theorem brEntry_mpeg1_layer3_fifteen {rom : List Host.Cell} (h : brLegal rom = true) :
    (brEntry rom (brAddr 0b11 0b01 15)).toInt = -1 := by
  obtain ⟨-, -, -, -, hcell⟩ := (brCellOk_iff _ _).mp (brCellOk_of_legal h (brAddr 0b11 0b01 15))
  exact hcell rfl

/-- The reserved version and index 3 read 0 in every legal `SR_ROM` (R137). -/
theorem srEntry_of_reserved {rom : List (Nat × BitVec 16)} (h : srLegal rom = true) {v i : BitVec 2}
    (hres : v = 0b01#2 ∨ i = 0b11#2) : srEntry rom (srAddr v i) = 0 := by
  obtain ⟨hcell, -⟩ := (srCellOk_iff _ _).mp (srCellOk_of_legal h (srAddr v i))
  exact hcell ((srAddr_reserved_iff v i).mpr hres)

/-- Index 2 of MPEG_2.5 is 8000 in every legal `SR_ROM` (R138). -/
theorem srEntry_mpeg25_two {rom : List (Nat × BitVec 16)} (h : srLegal rom = true) :
    srEntry rom (srAddr 0b00 0b10) = 8000 := by
  obtain ⟨-, -, hcell⟩ := (srCellOk_iff _ _).mp (srCellOk_of_legal h (srAddr 0b00 0b10))
  exact BitVec.eq_of_toNat_eq (hcell rfl)

/-! ### The result of a stated entry -/

/-- `br_raw` is the entry, told by its signed value (R140). -/
theorem Payload.IsBrResult.brRaw_of_toInt {p : Payload} {e x : BitVec 8} (h : p.IsBrResult e) (he : e.toInt = x.toInt) :
    p.brRaw = x :=
  h.1.trans (BitVec.eq_of_toInt_eq he)

/-- The result of the entry -1 is INVALID (R140). -/
theorem Payload.IsBrResult.of_neg_one {p : Payload} {e : BitVec 8} (h : p.IsBrResult e) (he : e.toInt = -1) :
    p.brKind = 0b11#2 ∧ p.brRaw = 0xFF#8 := by
  have hraw : p.brRaw = 0xFF#8 := h.brRaw_of_toInt he
  obtain ⟨-, hinvalid, -⟩ := h
  exact ⟨(hinvalid he).1, hraw⟩

/-- The result of the entry 0 is ANY (R140). -/
theorem Payload.IsBrResult.of_zero {p : Payload} {e : BitVec 8} (h : p.IsBrResult e) (he : e.toInt = 0) :
    p.brKind = 0b10#2 ∧ p.brRaw = 0x00#8 ∧ p.brBps = 0 := by
  have hraw : p.brRaw = 0x00#8 := h.brRaw_of_toInt he
  obtain ⟨-, -, hany, -⟩ := h
  obtain ⟨hkind, hbps⟩ := hany he
  exact ⟨hkind, hraw, hbps⟩

/-- The result of an entry other than 0 is VALID at the entry (R145). -/
theorem Payload.IsSrResult.of_ne_zero {p : Payload} {e x : BitVec 16} (h : p.IsSrResult e) (he : e = x) (hx : x ≠ 0) :
    p.srKind = 0b01#2 ∧ p.srHz = x := by
  obtain ⟨-, hvalid⟩ := h
  subst he
  exact hvalid hx

/-! ### The answers of the resolvers -/

theorem Payload.zero_noHeader : Payload.zero.NoHeader := by simp [NoHeader]

/-- Every operation but DECODE leaves the header fields of the zero payload (R150, R155, R190). -/
theorem answer_noHeader (br : List Host.Cell) (sr : List (Nat × BitVec 16)) {i : Instr} (hop : i.op ≠ 0b00#2) :
    (answer br sr i).NoHeader := by
  cases i with
  | decode sync h => exact absurd rfl hop
  | resolveBr v l j => exact Payload.zero_noHeader
  | resolveSr v j => exact Payload.zero_noHeader
  | op3 => exact Payload.zero_noHeader

/-- RESOLVE.BR's bitrate fields: the label leaves them as the lookup wrote them (R150). -/
theorem answer_resolveBr_isBrResult {br : List Host.Cell} (hl : brLegal br = true) (sr : List (Nat × BitVec 16))
    (v l : BitVec 2) (i : BitVec 4) : (answer br sr (.resolveBr v l i)).IsBrResult (brEntry br (brAddr v l i)) :=
  Payload.withBr_resolveBr_isBrResult hl (Payload.zero.withStatus statusOk) v l i

/-- RESOLVE.SR's sample-rate fields: the label leaves them as the lookup wrote them (R155). -/
theorem answer_resolveSr_isSrResult (br : List Host.Cell) (sr : List (Nat × BitVec 16)) (v i : BitVec 2) :
    (answer br sr (.resolveSr v i)).IsSrResult (srEntry sr (srAddr v i)) :=
  Payload.withSr_resolveSr_isSrResult (Payload.zero.withStatus statusOk) sr v i

/-! ### The statements -/

/-- Settles O36, by the stated cells: an address of the statement is the lookup of its row and index. -/
theorem legalBrTableKeepsStatedCells : Obligations.LegalBrTableKeepsStatedCells := by
  rintro s v l i ⟨hbr, -⟩
  exact ⟨brEntry_of_reserved hbr i, brEntry_of_index_zero hbr, brEntry_mpeg1_layer3_nine hbr,
    brEntry_mpeg1_layer3_fifteen hbr, neg_one_le_brEntry hbr _⟩

/-- Settles O37, by the stated cells: an address of the statement is the lookup of its row and index. -/
theorem legalSrTableKeepsStatedCells : Obligations.LegalSrTableKeepsStatedCells := by
  rintro s v i ⟨-, hsr⟩
  exact ⟨srEntry_of_reserved hsr, srEntry_mpeg1_zero hsr, srEntry_mpeg25_two hsr⟩

/-- Settles O23: the answer is the result of its entry, and the corner cases and the example read cells that every legal
table states. -/
theorem resolveBrAnswers : Obligations.ResolveBrAnswers := by
  intro s d hs
  have hbr : brLegal s.brRom = true := hs.1.1
  have hres := answer_resolveBr_isBrResult hbr s.srRom (d.extractLsb' 19 2) (d.extractLsb' 17 2) (d.extractLsb' 12 4)
  refine ⟨_, exec_of_ready _ hs, rfl, rfl, answer_noHeader _ _ (by simp [Instr.op]), rfl, rfl, hres,
    fun hreserved => hres.of_neg_one (brEntry_of_reserved hbr _ hreserved),
    fun hv hl hi => hres.of_zero (brEntry_of_index_zero hbr hv hl hi), ?_⟩
  rintro rfl
  have hentry := brEntry_mpeg1_layer3_nine hbr
  obtain ⟨hkind, hbps⟩ := hres.of_sixteen hentry
  exact ⟨hkind, hres.brRaw_of_toInt hentry, hbps⟩

/-- Settles O24: the answer is the result of its entry, and the corner cases and the example read cells that every legal
table states. -/
theorem resolveSrAnswers : Obligations.ResolveSrAnswers := by
  intro s d hs
  have hsr : srLegal s.srRom = true := hs.1.2
  have hres := answer_resolveSr_isSrResult s.brRom s.srRom (d.extractLsb' 19 2) (d.extractLsb' 10 2)
  refine ⟨_, exec_of_ready _ hs, rfl, rfl, answer_noHeader _ _ (by simp [Instr.op]), rfl, rfl, rfl, hres,
    fun hreserved => (hres.1 (srEntry_of_reserved hsr hreserved.symm)).1, ?_⟩
  rintro rfl
  exact hres.of_ne_zero (srEntry_mpeg25_two hsr) (by decide)

/-- Settles O29: an answer whose status is not OK resolves neither rate, and NONE is no sentinel. -/
theorem sentinelsKeepStatusOk : Obligations.SentinelsKeepStatusOk := by
  intro s t i hp h hsentinel
  obtain ⟨-, rfl⟩ := (exec_next_iff_of_afterReset hp).mp h
  rw [State.withResponse_payload] at hsentinel ⊢
  by_contra hstatus
  have hbr : (answer s.brRom s.srRom i).brKind = brNone := (answer_brKind_eq_none_iff ..).mpr (.inl hstatus)
  have hsr : (answer s.brRom s.srRom i).srKind = srNone := (answer_srKind_eq_none_iff ..).mpr (.inl hstatus)
  simp [hbr, hsr] at hsentinel

end Sys2Proof.Machine
end

section
/-! PROOFS. The renderers (spec/42_render.md R171 to R174): the decimal form of a rate as Mathlib's list of digits, then the
statements of the family. -/

namespace Sys2Proof.Machine

/-! ### The decimal form -/

/-- The library's digit character, told by its code. -/
theorem digitChar_eq_ofNat {d : Nat} (hd : d < 10) : d.digitChar = Char.ofNat (48 + d) := by
  rw [← Nat.toNat_digitChar_of_lt_ten hd, Char.ofNat_toNat]

/-- The characters of a positive number, most significant first, are its digits in Mathlib's order reversed. -/
theorem toDigits_ten_of_pos {n : Nat} (hn : 0 < n) :
    Nat.toDigits 10 n = (Nat.digits 10 n).reverse.map fun d => Char.ofNat (48 + d) := by
  induction n using Nat.strong_induction_on with
  | _ n ih =>
    rw [Nat.toDigits_eq_if (by decide), Nat.digits_def' (by decide) hn]
    split
    case isTrue hlt =>
      rw [Nat.mod_eq_of_lt hlt, Nat.div_eq_of_lt hlt, digitChar_eq_ofNat hlt]
      rfl
    case isFalse hge =>
      rw [ih (n / 10) (by omega) (by omega), digitChar_eq_ofNat (Nat.mod_lt n (by decide)), List.reverse_cons,
        List.map_append]
      rfl

/-- The value of the written digits is the number they were taken from. -/
theorem foldl_digits_reverse (n : Nat) : (Nat.digits 10 n).reverse.foldl (fun acc d => 10 * acc + d) 0 = n := by
  calc (Nat.digits 10 n).reverse.foldl (fun acc d => 10 * acc + d) 0
      = Nat.ofDigits 10 (Nat.digits 10 n) := by simp [Nat.ofDigits_eq_foldr, Nat.add_comm]
    _ = n := Nat.ofDigits_digits 10 n

/-- The most significant digit is not 0 (R173: no leading zeros). -/
theorem head?_digits_reverse_ne_zero (n : Nat) : (Nat.digits 10 n).reverse.head? ≠ some 0 := by
  intro hhead
  rw [List.head?_reverse] at hhead
  obtain ⟨hne, hlast⟩ := List.mem_getLast?_eq_getLast hhead
  exact Nat.getLast_digit_ne_zero 10 (Nat.digits_ne_nil_iff_ne_zero.mp hne) hlast.symm

/-! ### The statements -/

/-- Settles O50, by the renderers' tables at the four codes (R171, R172). -/
theorem versionAndLayerStrings : Obligations.VersionAndLayerStrings :=
  ⟨rfl, rfl⟩

/-- Settles O51: the kinds select the literals and the refusal, and the digits of a VALID rate are Mathlib's reversed; 0 is
written as its one digit. -/
theorem rateStrings : Obligations.RateStrings := by
  refine ⟨fun _ => ⟨rfl, rfl, rfl, rfl⟩, fun _ => ⟨rfl, rfl, rfl⟩, fun n => ?_⟩
  rcases Nat.eq_zero_or_pos n with rfl | hn
  · exact ⟨[0], rfl, by decide, rfl, fun h => absurd h (Nat.lt_irrefl 0)⟩
  · exact ⟨(Nat.digits 10 n).reverse, congrArg String.ofList (toDigits_ten_of_pos hn),
      fun d hd => Nat.digits_lt_base (by decide) (List.mem_reverse.mp hd), foldl_digits_reverse n,
      fun _ => head?_digits_reverse_ne_zero n⟩

end Sys2Proof.Machine
end

section
/-! PROOFS. Errors (spec/60_exceptions.md R200 to R203): which requests have which status, the payload an error leaves, then
the statements of the family. -/

namespace Sys2Proof.Machine

/-! ### The requests of each status -/

/-- The reserved operation code is OP3's alone (R71). -/
theorem Instr.op_eq_op3_iff (i : Instr) : i.op = 0b11#2 ↔ i = .op3 := by
  cases i <;> simp [Instr.op]

/-- OK is the status of DECODE with a valid sync and of the resolvers (R200). -/
theorem answer_rspStatus_eq_ok_iff (br : List Host.Cell) (sr : List (Nat × BitVec 16)) (i : Instr) :
    (answer br sr i).rspStatus = statusOk ↔
      (∃ h, i = .decode Config.syncPattern h) ∨ (∃ v l j, i = .resolveBr v l j) ∨ ∃ v j, i = .resolveSr v j := by
  cases i with
  | decode sync h =>
    rw [answer_decode_rspStatus_eq_ok_iff]
    simp
  | resolveBr v l j => simp
  | resolveSr v j => simp
  | op3 => simp

/-- INVALID_SYNC is the status of DECODE without a valid sync and of no other request (R200, R201). -/
theorem answer_rspStatus_eq_invalidSync_iff (br : List Host.Cell) (sr : List (Nat × BitVec 16)) (i : Instr) :
    (answer br sr i).rspStatus = statusInvalidSync ↔ ∃ sync h, i = .decode sync h ∧ sync ≠ Config.syncPattern := by
  cases i with
  | decode sync h =>
    rw [answer_decode_rspStatus]
    split <;> simp [*]
  | resolveBr v l j => simp
  | resolveSr v j => simp
  | op3 => simp

/-- The status 0b11 is never produced (R200). -/
theorem answer_rspStatus_ne_three (br : List Host.Cell) (sr : List (Nat × BitVec 16)) (i : Instr) :
    (answer br sr i).rspStatus ≠ 0b11#2 := by
  cases i with
  | decode sync h =>
    rw [answer_decode_rspStatus]
    split <;> decide
  | resolveBr v l j => simp
  | resolveSr v j => simp
  | op3 => simp

/-- The request port presents a DECODE without a valid sync exactly under DECODE's code with bits 31:21 not all ones (R71,
R77). -/
theorem decodePort_badSync_iff (op : BitVec 2) (w : HeaderWord) :
    (∃ sync h, decodePort op w = .decode sync h ∧ sync ≠ Config.syncPattern) ↔
      op = 0b00#2 ∧ w.extractLsb' 21 11 ≠ Config.syncPattern := by
  rcases op_cases op with rfl | rfl | rfl | rfl <;> simp

/-! ### The payload of an error -/

/-- An error leaves the zero payload with its status, labelled with the operation code (R203). -/
theorem answer_of_rspStatus_ne_ok {br : List Host.Cell} {sr : List (Nat × BitVec 16)} {i : Instr}
    (herr : (answer br sr i).rspStatus ≠ statusOk) :
    answer br sr i = { Payload.zero with rspOp := i.op, rspStatus := (answer br sr i).rspStatus } := by
  cases i with
  | decode sync h =>
    have hsync : sync ≠ Config.syncPattern := mt (answer_decode_rspStatus_eq_ok_iff br sr sync h).mpr herr
    rw [answer_decode_badSync br sr h hsync]
    rfl
  | resolveBr v l j => exact absurd (answer_resolveBr_rspStatus ..) herr
  | resolveSr v j => exact absurd (answer_resolveSr_rspStatus ..) herr
  | op3 => rfl

/-! ### The statements -/

/-- Settles O26: the edge of a ready block answers, and each status has its requests. -/
theorem statusOfEveryRequest : Obligations.StatusOfEveryRequest := by
  intro s i hs
  exact ⟨_, exec_of_ready i hs, answer_rspStatus_eq_ok_iff .., answer_rspStatus_eq_invalidSync_iff ..,
    (answer_rspStatus_eq_illegalOp_iff ..).trans (Instr.op_eq_op3_iff i), answer_rspStatus_ne_three s.brRom s.srRom i⟩

/-- Settles O27: the port presents a DECODE without a valid sync exactly as stated, and its answer is the raised error. -/
theorem invalidSyncOnlyFromDecode : Obligations.InvalidSyncOnlyFromDecode := by
  intro s t op w hp h
  obtain ⟨-, rfl⟩ := (exec_next_iff_of_afterReset hp).mp h
  rw [State.withResponse_payload]
  have hiff := (answer_rspStatus_eq_invalidSync_iff s.brRom s.srRom (decodePort op w)).trans (decodePort_badSync_iff op w)
  refine ⟨hiff, fun hstatus => ?_⟩
  obtain ⟨rfl, hsync⟩ := hiff.mp hstatus
  exact answer_decode_badSync s.brRom s.srRom (Header.ofWord w) hsync

/-- Settles O28, by the payload of an error's answer. -/
theorem errorsLeaveAZeroPayload : Obligations.ErrorsLeaveAZeroPayload := by
  intro s t i hp h herr
  obtain ⟨-, rfl⟩ := (exec_next_iff_of_afterReset hp).mp h
  exact ⟨answer_of_rspStatus_ne_ok herr, rfl⟩

end Sys2Proof.Machine
end

section
/-! PROOFS. Reset and held requests (spec/70_reset_and_hazards.md R230, R231, R238): what the host observes of one request
edge, then the statements of the family. -/

namespace Sys2Proof.Machine

/-! ### One request edge, as the host observes it -/

/-- The host reads an answer as it is: neither of its codes is one that is never produced (R29, R200). -/
theorem sample_answer (br : List Host.Cell) (sr : List (Nat × BitVec 16)) (i : Instr) :
    sample ⟨1, answer br sr i⟩ = .ok (some (answer br sr i)) := by
  obtain ⟨hsr, -⟩ := answer_srConsistent br sr i
  simp [sample, answer_rspStatus_ne_three br sr i, hsr]

/-- A request edge of a ready block writes its answer and consumes the cycle; nothing else changes (R24). -/
theorem step_of_request_of_ready {s : State} {c : Cycle} {rest : List Cycle} (hs : s.Ready) (hc : s.cycles = c :: rest)
    (hrst : c.rst = 0) (hreq : c.reqValid = 1) :
    step s = .next ((s.withCycles rest).withResponse 1 (answer s.brRom s.srRom (decodePort c.reqOp c.reqData))) :=
  (step_of_request hc hrst hreq).trans (exec_of_ready (s := s.withCycles rest) _ hs)

/-- A step that happens adds the reading of its output ports to what the host observes. -/
theorem observations_succ_of_step {s t : State} (h : step s = .next t) (n : Nat) :
    observations (n + 1) s = sample (outputPorts t) :: observations n t := by
  simp [observations, h]

/-- The first edge of a queue that begins with a request: the host observes its answer, then the rest of the run. -/
theorem observations_succ_of_request {s : State} {c : Cycle} {rest : List Cycle} (hs : s.Ready)
    (hc : s.cycles = c :: rest) (hrst : c.rst = 0) (hreq : c.reqValid = 1) (n : Nat) :
    observations (n + 1) s =
      .ok (some (answer s.brRom s.srRom (decodePort c.reqOp c.reqData)))
        :: observations n
            ((s.withCycles rest).withResponse 1 (answer s.brRom s.srRom (decodePort c.reqOp c.reqData))) := by
  rw [observations_succ_of_step (step_of_request_of_ready hs hc hrst hreq)]
  exact congrArg (· :: _) (sample_answer ..)

/-! ### The statements -/

/-- Settles O11, by the reset branch of the edge: every field of the zero payload is 0. -/
theorem resetEdgeClearsEveryRegister : Obligations.ResetEdgeClearsEveryRegister := by
  intro s c rest hl hc hrst
  have hstep := (step_of_cons hc).trans (edge_of_rst (s := s.withCycles rest) hl hrst)
  exact ⟨_, hstep, rfl, rfl, rfl, rfl, rfl, rfl⟩

/-- Settles O45, by induction on the number of edges: a request edge leaves the block ready and its ROMs as they are, so the
next one answers the same. -/
theorem heldRequestIsServedEveryEdge : Obligations.HeldRequestIsServedEveryEdge := by
  intro s k c rest hs hc hrst hreq
  induction k generalizing s with
  | zero => rfl
  | succ k ih =>
    rw [List.replicate_succ, List.cons_append] at hc
    rw [observations_succ_of_request hs hc hrst hreq, List.replicate_succ]
    exact congrArg (_ :: ·) (ih _ hs rfl)

end Sys2Proof.Machine
end

section
/-! PROOFS. The encoder after the decoder (spec/30_encoding.md R70 to R74, R82; 00_scope.md R7; 40_decode.md R105): the data
word that a request keeps, the row that it selects, the numbers and the bytes that present it, then the statements. -/

namespace Sys2Proof

/-! ### Data words -/

/-- A header word is its sync bits and its twelve fields: neighbouring slices join (R74). -/
theorem Header.toWord_ofWord (w : HeaderWord) : (Header.ofWord w).toWord (w.extractLsb' 21 11) = w := by
  unfold Header.toWord Header.ofWord
  simp only [BitVec.extractLsb'_append_extractLsb'_eq_extractLsb']
  exact BitVec.extractLsb'_eq_self

/-- Header words are masked field by field. -/
theorem Header.toWord_and (sync sync' : BitVec 11) (h h' : Header) :
    h.toWord sync &&& h'.toWord sync' =
      Header.toWord (sync &&& sync')
        ⟨h.version &&& h'.version, h.layer &&& h'.layer, h.protection &&& h'.protection, h.brIndex &&& h'.brIndex,
          h.srIndex &&& h'.srIndex, h.padding &&& h'.padding, h.privateFlag &&& h'.privateFlag, h.mode &&& h'.mode,
          h.modeExt &&& h'.modeExt, h.copyright &&& h'.copyright, h.original &&& h'.original,
          h.emphasis &&& h'.emphasis⟩ := by
  refine (BitVec.and_append (y₁ := h.emphasis) (y₂ := h'.emphasis)).trans ?_
  simp only [Header.toWord, BitVec.and_append]

/-- RESOLVE.BR's data word is a header word that holds its operands only (R73). -/
theorem Instr.resolveBr_data_eq_toWord (v l : BitVec 2) (i : BitVec 4) :
    (Instr.resolveBr v l i).data = Header.toWord 0 ⟨v, l, 0, i, 0, 0, 0, 0, 0, 0, 0, 0⟩ := by
  apply BitVec.eq_of_toNat_eq
  simp [Instr.resolveBr_data_toNat, Header.toWord_toNat]

/-- RESOLVE.SR's data word is a header word that holds its operands only (R73). -/
theorem Instr.resolveSr_data_eq_toWord (v i : BitVec 2) :
    (Instr.resolveSr v i).data = Header.toWord 0 ⟨v, 0, 0, 0, i, 0, 0, 0, 0, 0, 0, 0⟩ := by
  apply BitVec.eq_of_toNat_eq
  simp [Instr.resolveSr_data_toNat, Header.toWord_toNat]

/-- DECODE keeps its whole data word (R72). -/
theorem decodePort_decode_data (w : HeaderWord) : (decodePort 0b00#2 w).data = w := Header.toWord_ofWord w

/-- RESOLVE.BR keeps its data word under the operand mask of its row (R73). -/
theorem decodePort_resolveBr_data (w : HeaderWord) : (decodePort 0b01#2 w).data = w &&& 0x001EF000#32 := by
  have hmask : 0x001EF000#32 = Header.toWord 0 ⟨.allOnes 2, .allOnes 2, 0, .allOnes 4, 0, 0, 0, 0, 0, 0, 0, 0⟩ := by
    decide
  conv_rhs => rw [← Header.toWord_ofWord w, hmask, Header.toWord_and]
  rw [decodePort_resolveBr, Instr.resolveBr_data_eq_toWord]
  simp only [Header.ofWord, BitVec.and_allOnes, BitVec.ofNat_eq_ofNat, BitVec.and_zero]

/-- RESOLVE.SR keeps its data word under the operand mask of its row (R73). -/
theorem decodePort_resolveSr_data (w : HeaderWord) : (decodePort 0b10#2 w).data = w &&& 0x00180C00#32 := by
  have hmask : 0x00180C00#32 = Header.toWord 0 ⟨.allOnes 2, 0, 0, 0, .allOnes 2, 0, 0, 0, 0, 0, 0, 0⟩ := by decide
  conv_rhs => rw [← Header.toWord_ofWord w, hmask, Header.toWord_and]
  rw [decodePort_resolveSr, Instr.resolveSr_data_eq_toWord]
  simp only [Header.ofWord, BitVec.and_allOnes, BitVec.ofNat_eq_ofNat, BitVec.and_zero]

/-! ### Requests and rows -/

/-- An encoded instruction is read back (R70). -/
theorem decodeRequest_encode (i : Instr) : decodeRequest (encode i) = i :=
  (decodeRequest_append i.op i.data).trans (decodePort_op_data i)

/-- The upper port of an encoded instruction (R70). -/
theorem encode_slice_op (i : Instr) : (encode i).extractLsb' 32 2 = i.op := by
  refine (slice_append_high i.op i.data 32 2 le_rfl).trans ?_
  simp

/-- The lower port of an encoded instruction (R70). -/
theorem encode_slice_data (i : Instr) : (encode i).extractLsb' 0 32 = i.data := slice_append_low i.op i.data

/-- A request is its two ports (R70). -/
theorem request_eq_append (r : Request) : r.extractLsb' 32 2 ++ r.extractLsb' 0 32 = r :=
  BitVec.extractLsb'_append_extractLsb' (w := 2)

/-- Exactly one row of the opcode table has a given operation code in its pattern (R71). -/
theorem exists_row_of_op (op : BitVec 2) : ∃ row ∈ opcodeRows, row.pattern.extractLsb' 32 2 = op
    ∧ ∀ other ∈ opcodeRows, other.pattern.extractLsb' 32 2 = op → other = row := by
  revert op
  decide

/-- A row selects the requests of its pattern's operation code (R71). -/
theorem OpcodeRow.selects_append_iff {row : OpcodeRow} (hrow : row ∈ opcodeRows) (op : BitVec 2) (data : HeaderWord) :
    row.selects (op ++ data) = true ↔ row.pattern.extractLsb' 32 2 = op := by
  rw [Laws.EncodesIntoItsRow.selects_append row hrow, beq_iff_eq]

/-- An encoded instruction belongs to the row of its mnemonic. -/
theorem encodesIntoItsRow (i : Instr) : Laws.EncodesIntoItsRow.Statement i := by
  cases i with
  | decode sync h => exact Laws.EncodesIntoItsRow.decode sync h
  | resolveBr v l j => exact Laws.EncodesIntoItsRow.resolveBr v l j
  | resolveSr v j => exact Laws.EncodesIntoItsRow.resolveSr v j
  | op3 => exact Laws.EncodesIntoItsRow.op3

/-- What a request decodes to has the mnemonic of the row of its operation code (R71). -/
theorem decodePort_mnemonic {row : OpcodeRow} (hrow : row ∈ opcodeRows) {op : BitVec 2}
    (hop : row.pattern.extractLsb' 32 2 = op) (data : HeaderWord) : (decodePort op data).mnemonic = row.mnemonic := by
  have hsel : row.selects (encode (decodePort op data)) = true :=
    (OpcodeRow.selects_append_iff hrow _ _).mpr (hop.trans (decodePort_op op data).symm)
  rw [encodesIntoItsRow (decodePort op data) row hrow, beq_iff_eq] at hsel
  exact hsel.symm

/-- The encoding of a decoded request: its operation code and the data word that its operation keeps. -/
theorem encode_decodePort (op : BitVec 2) (data : HeaderWord) :
    encode (decodePort op data) = op ++ (decodePort op data).data := by
  rw [encode, decodePort_op]

/-- A mask that holds the whole operation code acts on the data word. -/
theorem append_and_mask (op : BitVec 2) (data mask : HeaderWord) :
    (op ++ data) &&& (BitVec.allOnes 2 ++ mask) = op ++ (data &&& mask) := by
  rw [BitVec.and_append, BitVec.and_allOnes]

/-- A row's masks keep the operation code and the data word that its operation keeps (R73). -/
theorem encode_decodePort_of_row {row : OpcodeRow} (hrow : row ∈ opcodeRows) (data : HeaderWord) :
    encode (decodePort (row.pattern.extractLsb' 32 2) data)
      = (row.pattern.extractLsb' 32 2 ++ data) &&& (row.mask ||| row.operands) := by
  simp only [opcodeRows, List.mem_cons, List.not_mem_nil, or_false] at hrow
  rw [encode_decodePort]
  rcases hrow with rfl | rfl | rfl | rfl
  · have hdata : (decodePort 0b00#2 data).data = data &&& .allOnes 32 :=
      (decodePort_decode_data data).trans BitVec.and_allOnes.symm
    exact (congrArg (0b00#2 ++ ·) hdata).trans (append_and_mask ..).symm
  · exact (congrArg (0b01#2 ++ ·) (decodePort_resolveBr_data data)).trans (append_and_mask ..).symm
  · exact (congrArg (0b10#2 ++ ·) (decodePort_resolveSr_data data)).trans (append_and_mask ..).symm
  · have hdata : (decodePort 0b11#2 data).data = data &&& 0#32 := BitVec.and_zero.symm
    exact (congrArg (0b11#2 ++ ·) hdata).trans (append_and_mask ..).symm

/-! ### Numbers and bytes -/

theorem decodeNumber_of_lt {w : Nat} (h : w < 2 ^ 34) : decodeNumber w = .ok (decodeRequest (BitVec.ofNat 34 w)) :=
  if_pos h

theorem decodeNumber_of_ge {w : Nat} (h : 2 ^ 34 ≤ w) : decodeNumber w = .error .requestTooWide :=
  if_neg (by omega)

/-- Cutting an encoding's number to the width of a request or more cuts nothing. -/
theorem encode_toNat_mod {nbits : Nat} (h : 34 ≤ nbits) (i : Instr) : (encode i).toNat % 2 ^ nbits = (encode i).toNat :=
  Nat.mod_eq_of_lt (BitVec.toNat_lt_twoPow_of_le h)

/-- A header of another length than four bytes is refused (R235). -/
theorem packHeader_of_length_ne {bytes : List Byte} (h : bytes.length ≠ Config.hdrBytes) :
    packHeader bytes = .error .headerLength := by
  unfold packHeader
  split
  · exact absurd rfl h
  · rfl

/-! ### The statements -/

/-- Settles O1: the ports of an encoding are the operation code and the data word, which decode to the instruction. -/
theorem encodeThenDecode : Obligations.EncodeThenDecode :=
  fun i => ⟨decodeRequest_encode i, encode_slice_op i⟩

/-- Settles O2: the row that selects a request is the row of its operation code, and its masks keep what the operation
keeps. -/
theorem decodeThenEncodeKeepsOperandBits : Obligations.DecodeThenEncodeKeepsOperandBits := by
  intro r row hrow hsel
  rw [← request_eq_append r] at hsel ⊢
  rw [decodeRequest_append, ← (OpcodeRow.selects_append_iff hrow _ _).mp hsel]
  exact encode_decodePort_of_row hrow _

/-- Settles O3: the row of a request is the one with the pattern of its operation code, and what an operation keeps of the
data word is known per code. -/
theorem everyRequestSelectsOneRow : Obligations.EveryRequestSelectsOneRow := by
  refine ⟨fun op data => ?_, fun r => ?_⟩
  · exact ⟨fun h => h ▸ rfl, fun h => h ▸ rfl, fun h => h ▸ rfl, fun h => h ▸ rfl, decodePort_op op data,
      fun h => h ▸ decodePort_decode_data data, fun h => h ▸ decodePort_resolveBr_data data,
      fun h => h ▸ decodePort_resolveSr_data data, fun h => h ▸ rfl⟩
  · obtain ⟨row, hrow, hop, hother⟩ := exists_row_of_op (r.extractLsb' 32 2)
    rw [← request_eq_append r, decodeRequest_append]
    exact ⟨row, hrow, (OpcodeRow.selects_append_iff hrow _ _).mpr hop, decodePort_mnemonic hrow hop _,
      fun other hmem hsel => hother other hmem ((OpcodeRow.selects_append_iff hmem _ _).mp hsel)⟩

/-- Settles O6, by the number that a concatenation is worth. -/
theorem headerBytesPackFirstByteHighest : Obligations.HeaderBytesPackFirstByteHighest := by
  refine ⟨fun b0 b1 b2 b3 => ⟨_, rfl, ?_⟩, fun bytes => packHeader_of_length_ne⟩
  refine (toNat_append_eq _ b3).trans ?_
  simp only [toNat_append_eq]
  omega

/-- Settles O7: the words are fixed, so the decoder computes each instruction. -/
theorem writtenWordsDecode : Obligations.WrittenWordsDecode :=
  ⟨rfl, rfl, rfl, rfl, rfl, rfl⟩

/-- Settles O8: the decoder of numbers asks for 34 bits, and an encoding is a request. -/
theorem tableWordsDecodeAndWideNumbersAreRejected : Obligations.TableWordsDecodeAndWideNumbersAreRejected := by
  refine ⟨fun i nbits hn => ?_, fun w hw => ⟨_, decodeNumber_of_lt hw, rfl⟩, fun w => decodeNumber_of_ge⟩
  rw [decodeTableWord, encode_toNat_mod hn, decodeNumber_of_lt (encode i).isLt, BitVec.ofNat_toNat, BitVec.setWidth_eq,
    decodeRequest_encode]
  rfl

/-- Settles O54: no line of R82 has an operand to check, so each stands for its inputs. -/
theorem linesStandForCycles : Obligations.LinesStandForCycles :=
  ⟨fun _ => ⟨rfl, rfl, rfl, rfl⟩, ⟨_, rfl, rfl, rfl⟩, _, rfl, rfl⟩

end Sys2Proof
end

section
/-! PROOFS. Every edge (spec/10_state.md R20 to R29; 60_exceptions.md R200, R203; 70_reset_and_hazards.md R230 to R240): the
guard, the edges before the first reset, what the host reads after each edge, the consistency of every answer, then the
statements. -/

namespace Sys2Proof.Machine

/-! ### The guard of every edge -/

theorem guardTables_of_illegalBr {s : State} (h : brLegal s.brRom = false) (n : State) :
    guardTables s n = .refused .illegalBrLut := by
  simp [guardTables, h]

theorem guardTables_of_illegalSr {s : State} (hbr : brLegal s.brRom = true) (hsr : srLegal s.srRom = false) (n : State) :
    guardTables s n = .refused .illegalSrLut := by
  simp [guardTables, hbr, hsr]

/-- An operation is an update under the guard. -/
theorem exec_eq_guardTables (i : Instr) (s : State) :
    exec i s = guardTables s (s.withUpdate 1 (answer s.brRom s.srRom i)) := exec_eq i s

/-- An edge is an update under the guard, whatever its cycle is. -/
theorem edge_eq_guardTables (c : Cycle) (s : State) : ∃ n, edge c s = guardTables s n := by
  unfold edge
  split
  · exact ⟨_, rfl⟩
  · split
    · exact ⟨_, exec_eq_guardTables ..⟩
    · exact ⟨_, rfl⟩

/-- The guard reads the ROMs, which the host's cycles are no part of. -/
theorem guardTables_nextCycle (s n : State) : guardTables (nextCycle s).2 n = guardTables s n := by
  simp only [guardTables, nextCycle_brRom, nextCycle_srRom]

/-- A step is an update under the guard. -/
theorem step_eq_guardTables (s : State) : ∃ n, step s = guardTables s n := by
  obtain ⟨n, hn⟩ := edge_eq_guardTables (nextCycle s).1 (nextCycle s).2
  exact ⟨n, hn.trans (guardTables_nextCycle s n)⟩

/-- With legal tables every edge happens. -/
theorem exists_step_of_legal {s : State} (hs : s.TablesLegal) : ∃ t, step s = .next t := by
  obtain ⟨n, hn⟩ := step_eq_guardTables s
  exact ⟨n, hn.trans (guardTables_of_legal hs n)⟩

/-! ### Runs that end in a reset, and edges before the first one -/

/-- A run takes its first step and goes on from there. -/
theorem run_succ_of_step {M : Host.Core} {s t : M.State} (h : M.step s = .next t) (k : Nat) :
    M.run (k + 1) s = M.run k t := by
  rw [Host.Core.run, h]

/-- A reset step, from every legal state. -/
theorem step_of_rst {s : State} {c : Cycle} {rest : List Cycle} (hs : s.TablesLegal) (hc : s.cycles = c :: rest)
    (hrst : c.rst = 1) : step s = .next ⟨0, Payload.zero, s.brRom, s.srRom, .afterReset, rest⟩ :=
  (step_of_cons hc).trans (edge_of_rst (s := s.withCycles rest) hs hrst)

/-- A run whose last cycle is a reset leaves the reset registers and the ROMs it began with, whatever came before. -/
theorem run_of_last_rst {s : State} {before : List Cycle} {c : Cycle} (hs : s.TablesLegal)
    (hc : s.cycles = before ++ [c]) (hrst : c.rst = 1) :
    Sys2Proof.core.run (before.length + 1) s = .next ⟨0, Payload.zero, s.brRom, s.srRom, .afterReset, []⟩ := by
  induction before generalizing s with
  | nil => exact run_succ_of_step (M := Sys2Proof.core) (step_of_rst hs hc hrst) 0
  | cons b before ih =>
    obtain ⟨t, ht⟩ := exists_step_of_legal hs
    obtain ⟨-, hbr, hsr, hcycles, -⟩ := step_cases ht
    rw [hc] at hcycles
    refine (run_succ_of_step (M := Sys2Proof.core) ht _).trans ?_
    rw [← hbr, ← hsr]
    exact ih (by rwa [State.TablesLegal, hbr, hsr]) hcycles

/-- Until the first reset edge an operation leaves the registers unspecified (R232). -/
theorem exec_of_beforeReset (i : Instr) {s : State} {n : Nat} (hs : s.TablesLegal) (hp : s.phase = .beforeReset n) :
    exec i s = .next (s.withUnspecified (n + 1)) :=
  exec_next_iff.mpr ⟨hs, (State.withUpdate_beforeReset hp ..).symm⟩

/-- Until the first reset edge every edge leaves the registers unspecified (R232). -/
theorem edge_of_beforeReset {c : Cycle} {s : State} {n : Nat} (hs : s.TablesLegal) (hp : s.phase = .beforeReset n)
    (hrst : c.rst = 0) : edge c s = .next (s.withUnspecified (n + 1)) := by
  have hne : ¬ c.rst = 1 := by simp [hrst]
  unfold edge
  rw [if_neg hne]
  split
  · exact exec_of_beforeReset _ hs hp
  · exact idleEdge_next_iff.mpr ⟨hs, (State.withUpdate_beforeReset hp ..).symm⟩

/-! ### What an edge reads of its ports -/

/-- The reset branch reads no port but `rst`, and the idle branch none but `rst` and `req_valid` (R21). -/
theorem edge_eq_of_unusedPorts {c d : Cycle}
    (h : (c.rst = 1 ∧ d.rst = 1) ∨ (c.rst = 0 ∧ d.rst = 0 ∧ c.reqValid = 0 ∧ d.reqValid = 0)) (s : State) :
    edge c s = edge d s := by
  rcases h with ⟨hc, hd⟩ | ⟨hc, hd, hcv, hdv⟩
  · simp [edge, hc, hd]
  · simp [edge, hc, hd, hcv, hdv]

/-- A step with an instruction's encoding on the ports executes the instruction (R70, R71). -/
theorem step_of_encoding {s : State} {i : Instr} {rest : List Cycle} (hc : s.cycles = ⟨0, 1, i.op, i.data⟩ :: rest) :
    step s = exec i (s.withCycles rest) := by
  rw [step_of_request hc rfl rfl, decodePort_op_data]

/-- The cycle of an instruction's encoding presents its ports (R70). -/
theorem requestCycle_encode {nbits : Nat} (hn : 34 ≤ nbits) (i : Instr) :
    requestCycle nbits (encode i).toNat = ⟨0, 1, i.op, i.data⟩ := by
  rw [requestCycle, encode_toNat_mod hn, BitVec.ofNat_toNat, BitVec.setWidth_eq, encode_slice_op, encode_slice_data]
  rfl

/-! ### What the host reads -/

/-- A one-bit port that is not 1 is 0. -/
theorem bit_eq_zero_of_ne_one {b : BitVec 1} (h : b ≠ 1) : b = 0 := (BitVec.eq_zero_or_eq_one b).resolve_right h

/-- After an edge the host reads the answer to the edge's own cycle, in a block that has been reset or is reset by that cycle;
the block is ready again, with its ROMs and the host's cycles kept (R24 to R26). -/
theorem edge_answers_cycle {c : Cycle} {s : State} (hs : s.TablesLegal) (hp : s.phase = .afterReset ∨ c.rst = 1) :
    ∃ t, edge c s = .next t ∧ sample (outputPorts t) = .ok (answerOfCycle s.brRom s.srRom c)
      ∧ t.Ready ∧ t.brRom = s.brRom ∧ t.srRom = s.srRom ∧ t.cycles = s.cycles := by
  unfold answerOfCycle
  by_cases hrst : c.rst = 1
  · rw [if_pos hrst]
    exact ⟨_, edge_of_rst hs hrst, rfl, ⟨hs, rfl⟩, rfl, rfl, rfl⟩
  · have hready : s.Ready := ⟨hs, hp.resolve_right hrst⟩
    have hrst' := bit_eq_zero_of_ne_one hrst
    rw [if_neg hrst]
    by_cases hreq : c.reqValid = 1
    · rw [if_pos hreq]
      exact ⟨_, (edge_of_request s hrst' hreq).trans (exec_of_ready _ hready), sample_answer .., hready, rfl, rfl, rfl⟩
    · rw [if_neg hreq]
      exact ⟨_, edge_of_idle hready hrst' (bit_eq_zero_of_ne_one hreq), rfl, hready, rfl, rfl, rfl⟩

/-- The same for a step, whose cycle is the coming one of the host. -/
theorem step_answers_nextCycle {s : State} (hs : s.TablesLegal)
    (hp : s.phase = .afterReset ∨ (nextCycle s).1.rst = 1) :
    ∃ t, step s = .next t ∧ sample (outputPorts t) = .ok (answerOfCycle s.brRom s.srRom (nextCycle s).1)
      ∧ t.Ready ∧ t.brRom = s.brRom ∧ t.srRom = s.srRom ∧ t.cycles = (nextCycle s).2.cycles := by
  have hedge := edge_answers_cycle (c := (nextCycle s).1) (s := (nextCycle s).2)
    (by rwa [State.TablesLegal, nextCycle_brRom, nextCycle_srRom]) (by rwa [nextCycle_phase])
  rwa [nextCycle_brRom, nextCycle_srRom] at hedge

/-- The same for a step with a cycle of the host's list. -/
theorem step_answers_cycle {s : State} {c : Cycle} {rest : List Cycle} (hs : s.TablesLegal)
    (hc : s.cycles = c :: rest) (hp : s.phase = .afterReset ∨ c.rst = 1) :
    ∃ t, step s = .next t ∧ sample (outputPorts t) = .ok (answerOfCycle s.brRom s.srRom c)
      ∧ t.Ready ∧ t.brRom = s.brRom ∧ t.srRom = s.srRom ∧ t.cycles = rest := by
  have hstep := step_answers_nextCycle hs (by rwa [nextCycle_cons s c rest hc])
  rwa [nextCycle_cons s c rest hc] at hstep

/-! ### The answers are consistent -/

/-- The operation code of RESOLVE.BR is its alone (R71). -/
theorem Instr.op_eq_resolveBr_iff (i : Instr) : i.op = 0b01#2 ↔ ∃ v l j, i = .resolveBr v l j := by
  cases i <;> simp [Instr.op]

/-- The operation code of RESOLVE.SR is its alone (R71). -/
theorem Instr.op_eq_resolveSr_iff (i : Instr) : i.op = 0b10#2 ↔ ∃ v j, i = .resolveSr v j := by
  cases i <;> simp [Instr.op]

/-- Both rates of a DECODE with status OK are resolved (R100). -/
theorem answer_kinds_of_decode_ok {br : List Host.Cell} {sr : List (Nat × BitVec 16)} {i : Instr} (hop : i.op = 0b00#2)
    (hok : (answer br sr i).rspStatus = statusOk) :
    (answer br sr i).brKind ≠ brNone ∧ (answer br sr i).srKind ≠ srNone := by
  rw [ne_eq, ne_eq, answer_brKind_eq_none_iff, answer_srKind_eq_none_iff, ← Instr.op_eq_resolveSr_iff,
    ← Instr.op_eq_resolveBr_iff]
  simp [hok, hop]

/-- An error leaves no header field (R203). -/
theorem answer_noHeader_of_error {br : List Host.Cell} {sr : List (Nat × BitVec 16)} {i : Instr}
    (herr : (answer br sr i).rspStatus ≠ statusOk) : (answer br sr i).NoHeader := by
  rw [answer_of_rspStatus_ne_ok herr]
  exact Payload.zero_noHeader

/-- Every answer of a block with a legal `BR_LUT` is consistent (R28, R29, R200, R203). -/
theorem answer_consistent {br : List Host.Cell} (hl : brLegal br = true) (sr : List (Nat × BitVec 16)) (i : Instr) :
    (answer br sr i).Consistent := by
  refine ⟨answer_brConsistent hl sr i, answer_srConsistent br sr i, answer_rspStatus_ne_three br sr i,
    fun herr => ⟨answer_noHeader_of_error herr, (answer_brKind_eq_none_iff ..).mpr (.inl herr),
      (answer_srKind_eq_none_iff ..).mpr (.inl herr)⟩, fun hbad => ?_, ?_, ?_, ?_, ?_⟩
  all_goals rw [answer_rspOp]
  · obtain ⟨sync, h, rfl, -⟩ := (answer_rspStatus_eq_invalidSync_iff ..).mp hbad
    rfl
  · exact answer_rspStatus_eq_illegalOp_iff br sr i
  · exact answer_noHeader br sr
  · intro hop
    obtain ⟨v, l, j, rfl⟩ := (Instr.op_eq_resolveBr_iff i).mp hop
    exact ⟨rfl, resolveBr_kind_ne_none br v l j⟩
  · intro hop
    obtain ⟨v, j, rfl⟩ := (Instr.op_eq_resolveSr_iff i).mp hop
    exact ⟨rfl, resolveSr_kind_ne_none sr v j⟩

theorem Payload.zero_consistent : Payload.zero.Consistent := by
  simp [Consistent, Payload.zero_brConsistent, Payload.zero_srConsistent, Payload.zero_noHeader]

/-- A state that shows no response meets the invariant when its payload is consistent. -/
theorem State.inv_of_not_valid {s : State} (hs : s.TablesLegal) (hvalid : s.rspValid = 0) (hpay : s.payload.Consistent) :
    s.Inv :=
  ⟨hs, fun _ => ⟨hpay, fun h => absurd (hvalid.symm.trans h) (by decide)⟩⟩

/-! ### The statements -/

/-- Settles O41: the tables are the default ones and the registers hold the zero payload. -/
theorem resetMeetsTheInvariant : Obligations.ResetMeetsTheInvariant :=
  State.inv_of_not_valid reset_tablesLegal rfl Payload.zero_consistent

/-- Settles O42: an edge writes a zero payload, an answer, or nothing but `rsp_valid`; each is consistent, and before the first
reset edge the invariant says nothing of the registers. -/
theorem everyEdgeKeepsTheInvariant : Obligations.EveryEdgeKeepsTheInvariant := by
  refine ⟨fun s t hinv h => ?_, ⟨reset_tablesLegal, (nomatch ·)⟩, fun s t c rest hc hrst h => ?_⟩
  · obtain ⟨hs, hregs⟩ := hinv
    obtain ⟨-, hbr, hsr, -, hcase⟩ := step_cases h
    have hst : t.TablesLegal := by rwa [State.TablesLegal, hbr, hsr]
    rcases hcase with ⟨-, -, hvalid, hpay⟩ | ⟨-, hps, -, hwrite⟩ | ⟨-, n, -, hn, -⟩
    · exact State.inv_of_not_valid hst hvalid (hpay ▸ Payload.zero_consistent)
    · rcases hwrite with ⟨-, -, hpay⟩ | ⟨-, hvalid, hpay⟩
      · refine ⟨hst, fun _ => ?_⟩
        rw [hpay, answer_rspOp]
        exact ⟨answer_consistent hs.1 .., fun _ => answer_kinds_of_decode_ok⟩
      · exact State.inv_of_not_valid hst hvalid (hpay ▸ (hregs hps).1)
    · exact ⟨hst, fun hp => nomatch hn.symm.trans hp⟩
  · obtain ⟨hs, -⟩ := step_cases h
    rw [step_of_rst hs hc hrst] at h
    cases h
    exact ⟨State.inv_of_not_valid hs rfl Payload.zero_consistent, hs, rfl⟩

/-- Settles O14: power-on has legal tables, so its run ends in the reset registers. -/
theorem powerOnThenResetIsReset : Obligations.PowerOnThenResetIsReset :=
  ⟨fun _ hrst => step_of_rst reset_tablesLegal rfl hrst, fun _ _ _ hrst => run_of_last_rst reset_tablesLegal rfl hrst⟩

/-- Settles O15, by the edge before the first reset. -/
theorem beforeFirstResetRegistersAreUnspecified : Obligations.BeforeFirstResetRegistersAreUnspecified :=
  ⟨⟨rfl, rfl, rfl⟩, fun _ _ i hs hp => exec_of_beforeReset i hs hp,
    fun s _ _ rest hs hp hc hrst => (step_of_cons hc).trans (edge_of_beforeReset (s := s.withCycles rest) hs hp hrst)⟩

/-- Settles O17: every operation and every edge is an update under the guard, which names the table. -/
theorem illegalTablesStopEveryEdge : Obligations.IllegalTablesStopEveryEdge := by
  intro s hs
  obtain ⟨n, hn⟩ := step_eq_guardTables s
  cases hbr : brLegal s.brRom with
  | false =>
    have hguard := guardTables_of_illegalBr hbr
    exact ⟨_, fun _ => rfl, (nomatch ·), hn.trans (hguard n), fun i => (exec_eq_guardTables i s).trans (hguard _)⟩
  | true =>
    have hsr : srLegal s.srRom = false := Bool.eq_false_of_not_eq_true fun h => hs ⟨hbr, h⟩
    have hguard := guardTables_of_illegalSr hbr hsr
    exact ⟨_, (nomatch ·), fun _ => ⟨hsr, rfl⟩, hn.trans (hguard n),
      fun i => (exec_eq_guardTables i s).trans (hguard _)⟩

/-- Settles O32, by what an operation and a step can do. -/
theorem operationsWriteOnlyTheResponse : Obligations.OperationsWriteOnlyTheResponse := by
  refine ⟨fun s t i h => ?_, fun s t h => ?_⟩
  · obtain ⟨-, rfl⟩ := exec_next_iff.mp h
    refine ⟨by simp, by simp, by simp, by simp, by simp, fun hp => ?_⟩
    rw [State.withUpdate_afterReset hp]
    exact ⟨hp, rfl, answer_rspOp ..⟩
  · obtain ⟨-, hbr, hsr, hcycles, hcase⟩ := step_cases h
    refine ⟨fun _ => by rw [hbr], fun _ => by rw [hsr], hbr, hsr, hcycles, fun hp => ?_⟩
    rcases hcase with ⟨-, hpt, -⟩ | ⟨-, -, hpt, -⟩ | ⟨-, n, hn, -⟩
    · exact hpt
    · exact hpt
    · exact nomatch hn.symm.trans hp

/-- Settles O44, by the step of a ready block. -/
theorem stepAnswersItsCycle : Obligations.StepAnswersItsCycle :=
  fun _ _ _ hs hc => step_answers_cycle hs.1 hc (.inl hs.2)

/-- Settles O43, by induction on the host's list: each step answers its cycle and leaves a ready block with the same ROMs. -/
theorem responsesAreTheAnswersInOrder : Obligations.ResponsesAreTheAnswersInOrder := by
  intro s hs hp
  generalize hc : s.cycles = cs at hp ⊢
  induction cs generalizing s with
  | nil => rfl
  | cons c rest ih =>
    have hp' : s.phase = .afterReset ∨ c.rst = 1 := by
      rcases hp with hp | ⟨_, _, hcons, hrst⟩
      · exact .inl hp
      · cases hcons
        exact .inr hrst
    obtain ⟨t, ht, hsample, hready, hbr, hsr, hrest⟩ := step_answers_cycle hs hc hp'
    rw [List.length_cons, observations_succ_of_step ht, hsample, ih t hready.1 hrest (.inl hready.2), hbr, hsr]
    rfl

/-- Settles O46, by induction on the number of edges: each step of a ready block happens, is read without a fault, and leaves a
ready block. -/
theorem everyRunIsSafe : Obligations.EveryRunIsSafe := by
  intro s n hs
  induction n generalizing s with
  | zero => exact ⟨rfl, by simp [observations]⟩
  | succ n ih =>
    obtain ⟨t, ht, hsample, hready, -⟩ := step_answers_nextCycle hs.1 (.inl hs.2)
    obtain ⟨hlen, hfault⟩ := ih t hready
    rw [State.SafeFor, observations_succ_of_step ht, hsample]
    exact ⟨by simp [hlen], by simpa using hfault⟩

/-- Settles O9: the coming cycle presents the request, and an encoding on the ports decodes to its instruction. -/
theorem stepRunsPresentedRequest : Obligations.StepRunsPresentedRequest := by
  refine ⟨fun s c rest hc => step_of_request hc, fun s i rest hc => ?_, fun s i nbits hn => ?_⟩
  · exact step_of_encoding hc
  · exact step_of_encoding (by rw [State.withFetchWord, requestCycle_encode hn]; rfl)

/-- Settles O13: the fields of the reset state, and a ROM that lists nothing. -/
theorem resetStateIsZero : Obligations.ResetStateIsZero :=
  ⟨rfl, rfl, fun _ => rfl, fun _ => rfl, rfl, rfl⟩

/-- Settles O16: each step is the edge of its cycle on the same state, and the edges are equal. -/
theorem unusedPortsAreIgnored : Obligations.UnusedPortsAreIgnored :=
  fun s _ _ rest hports => edge_eq_of_unusedPorts hports (s.withCycles rest)

/-- Settles O47: the one step of the latency is the request edge. -/
theorem latencyIsOneClock : Obligations.LatencyIsOneClock := by
  intro s i rest hs hc
  have hstep := (step_of_encoding hc).trans (exec_of_ready (s := s.withCycles rest) i hs)
  exact ⟨_, run_succ_of_step (M := Sys2Proof.core) hstep 0, sample_answer .., rfl⟩

/-- Settles O48, by the branches of the host's reading. -/
theorem sampleReadsValidResponsesOnly : Obligations.SampleReadsValidResponsesOnly := by
  intro out
  refine ⟨fun hv => ?_, fun hv hst => ?_, fun hv hst hsr => ?_, fun hv hst hsr => ?_⟩
  all_goals simp [sample, *]

end Sys2Proof.Machine
end

section
/-! PROOFS. The table arguments (spec/41_resolve.md R130 to R141; 20_memory.md R50): the cells of a built ROM, legal arguments
cell by cell, the canonical form, the product, then the statements. -/

namespace Sys2Proof.Machine

/-! ### Building a ROM from an argument -/

/-- Every cell of a built ROM is an entry of the argument, at its address. -/
theorem Memory.all_ofTable {w : Nat} (u : Nat → BitVec w) (ok : Nat → BitVec w → Bool) (l : List (BitVec w)) (a : Nat)
    (h : ∀ k e, l[k]? = some e → ok (a + k) e = true) :
    (Memory.ofTable u a l).all (fun c => ok c.1 c.2) = true := by
  induction l generalizing a with
  | nil => rfl
  | cons x l ih =>
    have hrest := ih (a + 1) fun k e he => by
      rw [Nat.add_assoc, Nat.add_comm 1 k]
      exact h (k + 1) e he
    unfold Memory.ofTable
    split
    · exact hrest
    · rw [List.all_cons, hrest, Bool.and_true]
      exact h 0 x rfl

/-- An entry of an argument is what the built ROM reads at its address. -/
theorem romRead_ofTable_of_getElem? {w : Nat} (u : Nat → BitVec w) {l : List (BitVec w)} {k : Nat} {e : BitVec w}
    (h : l[k]? = some e) : romRead u (Memory.ofTable u 0 l) k = e := by
  obtain ⟨hk, rfl⟩ := List.getElem?_eq_some_iff.mp h
  simpa using romRead_ofTable u l 0 k hk

/-- A built ROM is canonical and holds legal cells exactly when every entry of the argument is a legal cell, for any rule on
cells that the unlisted readings keep. -/
theorem Memory.legal_ofTable_iff {w n : Nat} {u : Nat → BitVec w} {ok : Nat → BitVec w → Bool} {l : List (BitVec w)}
    (hlen : l.length = n) (hu : ∀ a < n, ok a (u a) = true) :
    (Memory.wf n u (Memory.ofTable u 0 l) && (Memory.ofTable u 0 l).all (fun c => ok c.1 c.2)) = true ↔
      ∀ a e, l[a]? = some e → ok a e = true := by
  rw [Memory.wf_ofTable u n l 0 (by omega), Bool.true_and]
  refine ⟨fun h a e he => ?_, fun h => Memory.all_ofTable u ok l 0 (by simpa using h)⟩
  obtain ⟨ha, -⟩ := List.getElem?_eq_some_iff.mp he
  rw [← romRead_ofTable_of_getElem? u he]
  exact romRead_all u ok _ a h (hu a (by omega))

theorem brLegal_ofTable_iff {br : List (BitVec 8)} (hlen : br.length = 256) :
    brLegal (Memory.ofTable brDefault 0 br) = true ↔ ∀ a e, br[a]? = some e → brCellOk a e = true :=
  Memory.legal_ofTable_iff hlen fun a ha => by simpa [Nat.mod_eq_of_lt ha] using brDefault_ok (BitVec.ofNat 8 a)

theorem srLegal_ofTable_iff {sr : List (BitVec 16)} (hlen : sr.length = 16) :
    srLegal (Memory.ofTable srDefault 0 sr) = true ↔ ∀ a e, sr[a]? = some e → srCellOk a e = true :=
  Memory.legal_ofTable_iff hlen fun a ha => by simpa [Nat.mod_eq_of_lt ha] using srDefault_ok (BitVec.ofNat 4 a)

/-! ### Legal arguments, cell by cell -/

/-- The rules for one `BR_LUT` entry, by its row and index (R132 to R135). -/
theorem brCellOk_address_iff {v l i : Nat} (hl : l < 4) (hi : i < 16) (e : BitVec 8) :
    brCellOk (64 * v + 16 * l + i) e = true ↔
      (e.toInt = -1 ∨ e.toInt = 0 ∨ (1 ≤ e.toInt ∧ e.toInt ≤ 127))
        ∧ (v = 1 ∨ l = 0 → e.toInt = -1)
        ∧ (v ≠ 1 → l ≠ 0 → i = 0 → e.toInt = 0)
        ∧ (v = 3 → l = 1 → i = 9 → e.toInt = 16)
        ∧ (v = 3 → l = 1 → i = 15 → e.toInt = -1) := by
  have hmax : e.toInt < 128 := BitVec.toInt_lt
  have hver : (64 * v + 16 * l + i) / 64 = v := by omega
  have hlay : (64 * v + 16 * l + i) / 16 % 4 = l := by omega
  have hidx : (64 * v + 16 * l + i) % 16 = i := by omega
  have h9 : 64 * v + 16 * l + i = 0xD9 ↔ v = 3 ∧ l = 1 ∧ i = 9 := by omega
  have h15 : 64 * v + 16 * l + i = 0xDF ↔ v = 3 ∧ l = 1 ∧ i = 15 := by omega
  rw [brCellOk_iff, hver, hlay, hidx, h9, h15]
  have hrange : -1 ≤ e.toInt ↔ e.toInt = -1 ∨ e.toInt = 0 ∨ (1 ≤ e.toInt ∧ e.toInt ≤ 127) := by omega
  rw [hrange]
  simp only [not_or, and_imp, ne_eq]

/-- The rules for one `SR_LUT` entry, by its row and index (R137 to R139). -/
theorem srCellOk_address_iff {v i : Nat} (hi : i < 4) (e : BitVec 16) :
    srCellOk (4 * v + i) e = true ↔
      (v = 1 ∨ i = 3 → e.toNat = 0) ∧ (v = 3 → i = 0 → e.toNat = 44100) ∧ (v = 0 → i = 2 → e.toNat = 8000) := by
  have hver : (4 * v + i) / 4 = v := by omega
  have hidx : (4 * v + i) % 4 = i := by omega
  have hC : 4 * v + i = 0xC ↔ v = 3 ∧ i = 0 := by omega
  have h2 : 4 * v + i = 0x2 ↔ v = 0 ∧ i = 2 := by omega
  have hzero : e = 0 ↔ e.toNat = 0 := BitVec.toNat_eq
  rw [srCellOk_iff, hver, hidx, hC, h2, hzero, and_imp, and_imp]

/-- A `BR_LUT` argument keeps the rules exactly when it has the size of the table and its ROM is legal. -/
theorem legalBrArgument_iff (br : List (BitVec 8)) :
    LegalBrArgument br ↔ br.length = 256 ∧ brLegal (Memory.ofTable brDefault 0 br) = true := by
  refine and_congr_right fun hlen => ?_
  rw [brLegal_ofTable_iff hlen]
  refine ⟨fun h a e he => ?_, fun h v l i _ hl hi e he => (brCellOk_address_iff hl hi e).mp (h _ e he)⟩
  obtain ⟨ha, -⟩ := List.getElem?_eq_some_iff.mp he
  have haddr : a = 64 * (a / 64) + 16 * (a / 16 % 4) + a % 16 := by omega
  rw [haddr] at he ⊢
  exact (brCellOk_address_iff (by omega) (by omega) e).mpr (h _ _ _ (by omega) (by omega) (by omega) e he)

/-- An `SR_LUT` argument keeps the rules exactly when it has the size of the table and its ROM is legal. -/
theorem legalSrArgument_iff (sr : List (BitVec 16)) :
    LegalSrArgument sr ↔ sr.length = 16 ∧ srLegal (Memory.ofTable srDefault 0 sr) = true := by
  refine and_congr_right fun hlen => ?_
  rw [srLegal_ofTable_iff hlen]
  refine ⟨fun h a e he => ?_, fun h v i _ hi e he => (srCellOk_address_iff hi e).mp (h _ e he)⟩
  obtain ⟨ha, -⟩ := List.getElem?_eq_some_iff.mp he
  have haddr : a = 4 * (a / 4) + a % 4 := by omega
  rw [haddr] at he ⊢
  exact (srCellOk_address_iff (by omega) e).mpr (h _ _ (by omega) (by omega) e he)

/-! ### The canonical form -/

/-- The addresses of a canonical list are above everything below its first one. -/
theorem Memory.all_lt_of_wf_cons {w n : Nat} {u : Nat → BitVec w} {a b : Nat} {x : BitVec w} {m : List (Nat × BitVec w)}
    (hm : Memory.wf n u ((b, x) :: m) = true) (hab : a < b) : ((b, x) :: m).all (fun c => decide (a < c.1)) = true := by
  obtain ⟨-, -, hall, -⟩ := (Memory.wf_cons ..).mp hm
  simp only [List.all_eq_true, List.mem_cons, decide_eq_true_eq] at hall ⊢
  rintro c (rfl | hc)
  · exact hab
  · exact hab.trans (hall c hc)

/-- The first listed cell of a canonical list is missed by every list whose addresses are all above it. -/
theorem Memory.romRead_ne_of_all_lt {w n : Nat} {u : Nat → BitVec w} {a : Nat} {x : BitVec w} {m m' : List (Nat × BitVec w)}
    (hm : Memory.wf n u ((a, x) :: m) = true) (hm' : m'.all (fun c => decide (a < c.1)) = true) :
    romRead u ((a, x) :: m) a ≠ romRead u m' a := by
  obtain ⟨-, hx, -⟩ := (Memory.wf_cons ..).mp hm
  rwa [romRead_cons, if_pos rfl, romRead_of_lt u m' a hm']

/-- Canonical lists with the same first cell read alike behind it when they read alike. -/
theorem Memory.romRead_tail_eq {w : Nat} {u : Nat → BitVec w} {a b : Nat} {x : BitVec w} {m m' : List (Nat × BitVec w)}
    (hm : m.all (fun c => decide (a < c.1)) = true) (hm' : m'.all (fun c => decide (a < c.1)) = true)
    (h : romRead u ((a, x) :: m) b = romRead u ((a, x) :: m') b) : romRead u m b = romRead u m' b := by
  by_cases hb : b = a
  · rw [hb, romRead_of_lt u m a hm, romRead_of_lt u m' a hm']
  · rwa [romRead_cons, romRead_cons, if_neg hb, if_neg hb] at h

/-- Two canonical lists that read alike at every address of the ROM are equal. -/
theorem Memory.eq_of_romRead_eq {w n : Nat} {u : Nat → BitVec w} {m m' : List (Nat × BitVec w)}
    (hm : Memory.wf n u m = true) (hm' : Memory.wf n u m' = true) (h : ∀ a < n, romRead u m a = romRead u m' a) :
    m = m' := by
  induction m generalizing m' with
  | nil =>
    cases m' with
    | nil => rfl
    | cons c m' =>
      obtain ⟨hc, -⟩ := (Memory.wf_cons ..).mp hm'
      exact absurd (h _ hc).symm (Memory.romRead_ne_of_all_lt hm' rfl)
  | cons c m ih =>
    obtain ⟨a, x⟩ := c
    obtain ⟨ha, -, hall, htail⟩ := (Memory.wf_cons ..).mp hm
    cases m' with
    | nil => exact absurd (h a ha) (Memory.romRead_ne_of_all_lt hm rfl)
    | cons c' m' =>
      obtain ⟨b, y⟩ := c'
      obtain ⟨hb, -, hall', htail'⟩ := (Memory.wf_cons ..).mp hm'
      rcases Nat.lt_trichotomy a b with hab | rfl | hab
      · exact absurd (h a ha) (Memory.romRead_ne_of_all_lt hm (Memory.all_lt_of_wf_cons hm' hab))
      · obtain rfl : x = y := by simpa [romRead_cons] using h a ha
        rw [ih htail htail' fun b hb => Memory.romRead_tail_eq hall hall' (h b hb)]
      · exact absurd (h b hb).symm (Memory.romRead_ne_of_all_lt hm' (Memory.all_lt_of_wf_cons hm hab))

/-! ### The product -/

/-- A positive entry's product, for every legal table (R141). -/
theorem resolveBr_bps_of_pos {rom : List Host.Cell} {v l : BitVec 2} {i : BitVec 4}
    (h : 1 ≤ (brEntry rom (brAddr v l i)).toInt) :
    ((resolveBr rom v l i).bps.toNat : Int) = (brEntry rom (brAddr v l i)).toInt * 8000 := by
  unfold resolveBr
  generalize brEntry rom (brAddr v l i) = e at h ⊢
  obtain ⟨hexact, hmax⟩ := brBps_exact e h
  rcases classifyBr_cases e with ⟨he, -⟩ | ⟨he, -⟩ | ⟨-, -, hr⟩
  · omega
  · omega
  · rw [hr, hexact, BitVec.toInt_eq_toNat_of_lt (by omega)]
    rfl

/-- A VALID lookup of a legal table has a positive entry (R140). -/
theorem brEntry_pos_of_valid {rom : List Host.Cell} (hl : brLegal rom = true) {v l : BitVec 2} {i : BitVec 4}
    (h : (resolveBr rom v l i).kind = brValid) : 1 ≤ (brEntry rom (brAddr v l i)).toInt := by
  have hmin := neg_one_le_brEntry hl (brAddr v l i)
  unfold resolveBr at h
  rcases classifyBr_cases (brEntry rom (brAddr v l i)) with ⟨-, hr⟩ | ⟨-, hr⟩ | ⟨hm, hz, -⟩
  · simp [hr] at h
  · simp [hr] at h
  · omega

/-- The largest entry of the default table (R131). -/
theorem brDefault_toInt_le (a : BitVec 8) : (brDefault a.toNat).toInt ≤ 56 := by
  have h : ∀ k : Fin 256, (brDefault k.val).toInt ≤ 56 := by decide +kernel
  exact h ⟨a.toNat, a.isLt⟩

/-! ### The statements -/

/-- Settles O38: the arguments that keep the rules are those that building accepts, and a built ROM reads its argument back. -/
theorem buildAcceptsExactlyLegalTables : Obligations.BuildAcceptsExactlyLegalTables := by
  intro br sr s
  simp only [legalBrArgument_iff, legalSrArgument_iff]
  refine ⟨fun hbr hsr => ?_, fun hbr => if_neg hbr, fun hbr hsr => (if_pos hbr).trans (if_neg hsr)⟩
  refine ⟨_, (if_pos hbr).trans (if_pos hsr), ⟨hbr.2, hsr.2⟩, fun a => ?_, fun a => ?_, rfl, rfl, rfl, rfl⟩
  · have ha : br[a.toNat]? = some br[a.toNat] := List.getElem?_eq_getElem (by omega)
    rw [ha, brEntry, romRead_ofTable_of_getElem? brDefault ha]
  · have ha : sr[a.toNat]? = some sr[a.toNat] := List.getElem?_eq_getElem (by omega)
    rw [ha, srEntry, romRead_ofTable_of_getElem? srDefault ha]

/-- Settles O39: every address below the size of a ROM is an address of the ROM. -/
theorem canonicalRomsAreUnique : Obligations.CanonicalRomsAreUnique := by
  refine ⟨fun m m' hm hm' h => Memory.eq_of_romRead_eq hm hm' fun a ha => ?_,
    fun m m' hm hm' h => Memory.eq_of_romRead_eq hm hm' fun a ha => ?_⟩
  · simpa [brEntry, Nat.mod_eq_of_lt ha] using h (BitVec.ofNat 8 a)
  · simpa [srEntry, Nat.mod_eq_of_lt ha] using h (BitVec.ofNat 4 a)

/-- Settles O40: the product of a positive entry is exact, an 8-bit entry is at most 127, and one of the default table at most
56. -/
theorem bitrateProductIsExact : Obligations.BitrateProductIsExact := by
  refine ⟨fun s v l i _ hpos => ?_, fun v l i hvalid => ?_⟩
  · have hbps := resolveBr_bps_of_pos hpos
    have hmax : (brEntry s.brRom (brAddr v l i)).toInt < 128 := BitVec.toInt_lt
    exact ⟨hbps, by omega, by decide⟩
  · have hpos := brEntry_pos_of_valid reset_tablesLegal.1 hvalid
    have hbps := resolveBr_bps_of_pos hpos
    have hmax : (brEntry State.reset.brRom (brAddr v l i)).toInt ≤ 56 := brDefault_toInt_le (brAddr v l i)
    omega

end Sys2Proof.Machine
end

section
/-! PROOFS. What a host makes of a response (spec/40_decode.md R104, R105; 42_render.md R170 to R175; 30_encoding.md R76): the
re-encoding of DECODE's fields, when a renderer gives a text, then the statements. -/

namespace Sys2Proof.Machine

/-! ### Re-encoding -/

/-- R105's shifts, as numbers: a field moved to its position. -/
theorem ofNat_shiftLeft_toNat {n : Nat} (x : BitVec n) (k : Nat) :
    BitVec.ofNat 32 (x.toNat <<< k) = x.setWidth 32 <<< k := by
  apply BitVec.eq_of_toNat_eq
  simp [Nat.shiftLeft_eq, Nat.mod_mul_mod]

/-- The re-encoding of a payload with a header's fields is the header word under a valid sync (R105). -/
theorem Payload.reencode_withHeader (p : Payload) (h : Header) :
    (p.withHeader h).reencode = h.toWord Config.syncPattern := by
  have hword : h.toWord Config.syncPattern = BitVec.ofNat 32 (h.toWord Config.syncPattern).toNat := by simp
  rw [hword, ← decodeData_toNat]
  simp only [decodeData, BitVec.ofNat_or, ofNat_shiftLeft_toNat, BitVec.ofNat_toNat]
  rfl

@[simp] theorem Payload.reencode_withOp (p : Payload) (op : BitVec 2) : (p.withOp op).reencode = p.reencode := rfl

@[simp] theorem Payload.reencode_withBr (p : Payload) (b : BrResult) : (p.withBr b).reencode = p.reencode := rfl

@[simp] theorem Payload.reencode_withSr (p : Payload) (r : SrResult) : (p.withSr r).reencode = p.reencode := rfl

/-- DECODE of a word with a valid sync, by the word's fields (R77). -/
theorem decodePort_decode_of_sync {w : HeaderWord} (h : w.extractLsb' 21 11 = Config.syncPattern) :
    decodePort 0b00#2 w = .decode Config.syncPattern (Header.ofWord w) := by
  rw [decodePort_decode, h]

/-! ### When a renderer gives a text -/

/-- The host reads a payload only where `rsp_valid = 1`, and it is the payload of the ports (R26). -/
theorem of_sample_eq_some {out : OutputPorts} {p : Payload} (h : sample out = .ok (some p)) :
    out.rspValid = 1 ∧ out.payload = p := by
  unfold sample at h
  split at h
  next hv =>
    split at h
    · cases h
    · split at h
      · cases h
      · cases h
        exact ⟨hv, rfl⟩
  next => cases h

/-- A text is given of a read payload with status OK, by the renderer of the item (R170). -/
theorem render_eq_text_iff {item : RenderItem} {out : OutputPorts} {text : String} :
    render item out = .text text ↔
      ∃ p, sample out = .ok (some p) ∧ p.rspStatus = statusOk ∧ renderPayload item p = .ok text := by
  unfold render
  rcases sample out with f | _ | p
  · simp
  · simp
  · by_cases hok : p.rspStatus = statusOk
    · cases hr : renderPayload item p <;> simp [hok, hr]
    · simp [hok]

theorem renderHeaderField_eq_ok_iff {p : Payload} {t text : String} :
    renderHeaderField p t = .ok text ↔ p.rspOp = 0b00#2 ∧ text = t := by
  unfold renderHeaderField
  split <;> simp [*, eq_comm]

/-- A bitrate is rendered exactly when a bitrate is held (R173). -/
theorem exists_renderBitrate_iff (kind : BitVec 2) (bps : BitVec 20) :
    (∃ text, renderBitrate kind bps = .ok text) ↔ kind ≠ brNone := by
  rcases op_cases kind with rfl | rfl | rfl | rfl <;> simp [renderBitrate]

/-- A sample rate is rendered exactly when a sample rate is held, the kind 0b11 aside (R174). -/
theorem exists_renderSampleRate_iff (kind : BitVec 2) (hz : BitVec 16) :
    (∃ text, renderSampleRate kind hz = .ok text) ↔ kind ≠ srNone ∧ kind ≠ 0b11#2 := by
  rcases op_cases kind with rfl | rfl | rfl | rfl <;> simp [renderSampleRate]

/-- An answer with status OK gives the text of its item's renderer (R170). -/
theorem render_answer {br : List Host.Cell} {sr : List (Nat × BitVec 16)} {i : Instr} {item : RenderItem} {text : String}
    (hok : (answer br sr i).rspStatus = statusOk) (h : renderPayload item (answer br sr i) = .ok text) :
    render item ⟨1, answer br sr i⟩ = .text text :=
  render_eq_text_iff.mpr ⟨_, sample_answer br sr i, hok, h⟩

/-! ### The statements -/

/-- Settles O21: the fields of the answer are those of the word, which re-encode to it under the valid sync. -/
theorem reencodeGivesTheWordBack : Obligations.ReencodeGivesTheWordBack := by
  intro s w hs hsync
  change w.extractLsb' 21 11 = Config.syncPattern at hsync
  refine ⟨_, exec_of_ready _ hs, (answer_decode_rspStatus_eq_ok_iff ..).mpr hsync, ?_⟩
  rw [State.withResponse_payload, decodePort_decode_of_sync hsync, answer_decode_sync]
  rw [Payload.reencode_withOp, Payload.reencode_withSr, Payload.reencode_withBr, Payload.reencode_withHeader, ← hsync]
  exact Header.toWord_ofWord w

/-- Settles O22: the resolvers' operands are the fields of the word, and all three read the ROMs of one state. -/
theorem decodeAgreesWithResolvers : Obligations.DecodeAgreesWithResolvers := by
  intro s d b r w hp hsync hd hb hr
  obtain ⟨-, rfl⟩ := (exec_next_iff_of_afterReset hp).mp hd
  obtain ⟨-, rfl⟩ := (exec_next_iff_of_afterReset hp).mp hb
  obtain ⟨-, rfl⟩ := (exec_next_iff_of_afterReset hp).mp hr
  simp only [State.withResponse_payload]
  rw [decodePort_decode_of_sync hsync, answer_decode_sync]
  exact ⟨rfl, rfl, rfl, rfl, rfl⟩

/-- Settles O52: a text comes from a read payload with status OK, and each renderer that gives one asks for its field. -/
theorem renderersAnswerOnlyWhatIsHeld : Obligations.RenderersAnswerOnlyWhatIsHeld := by
  intro item out text h
  obtain ⟨p, hsample, hok, htext⟩ := render_eq_text_iff.mp h
  obtain ⟨hvalid, rfl⟩ := of_sample_eq_some hsample
  refine ⟨hvalid, hok, ?_⟩
  cases item with
  | version => exact .inl ⟨rfl, renderHeaderField_eq_ok_iff.mp htext⟩
  | layer => exact .inr (.inl ⟨rfl, renderHeaderField_eq_ok_iff.mp htext⟩)
  | bitrate => exact .inr (.inr (.inl ⟨rfl, (exists_renderBitrate_iff ..).mp ⟨_, htext⟩, htext⟩))
  | sampleRate => exact .inr (.inr (.inr ⟨rfl, ((exists_renderSampleRate_iff ..).mp ⟨_, htext⟩).1, htext⟩))
  | protection | padding | privateFlag | channelMode | extensionMode | copyright | original | emphasis =>
    cases htext

/-- Settles O53: an answer with status OK is read without a fault, and holds each rate but the one that its resolver does not
resolve. -/
theorem renderersAnswerWhatIsHeld : Obligations.RenderersAnswerWhatIsHeld := by
  intro s t i hp h hok
  obtain ⟨-, rfl⟩ := (exec_next_iff_of_afterReset hp).mp h
  rw [State.withResponse_payload] at hok
  refine ⟨?_, fun hne => ?_, fun hne => ?_⟩
  · rintro sync hd rfl
    obtain rfl := (answer_decode_rspStatus_eq_ok_iff ..).mp hok
    have hans := answer_decode_sync s.brRom s.srRom hd
    exact ⟨render_answer hok (by rw [hans]; rfl), render_answer hok (by rw [hans]; rfl)⟩
  · have hkind : (answer s.brRom s.srRom i).brKind ≠ brNone := by
      rw [ne_eq, answer_brKind_eq_none_iff]
      simpa [hok] using hne
    obtain ⟨text, htext⟩ := (exists_renderBitrate_iff _ (answer s.brRom s.srRom i).brBps).mpr hkind
    exact ⟨text, render_answer hok htext⟩
  · have hkind : (answer s.brRom s.srRom i).srKind ≠ srNone := by
      rw [ne_eq, answer_srKind_eq_none_iff]
      simpa [hok] using hne
    obtain ⟨hne3, -⟩ := answer_srConsistent s.brRom s.srRom i
    obtain ⟨text, htext⟩ := (exists_renderSampleRate_iff _ (answer s.brRom s.srRom i).srHz).mpr ⟨hkind, hne3⟩
    exact ⟨text, render_answer hok htext⟩

/-- Settles O49, by the names' tables at the four codes (R76). -/
theorem codeNames : Obligations.CodeNames :=
  ⟨rfl, rfl, rfl, rfl⟩

end Sys2Proof.Machine
end
